-- ==== Sys2Proof/Word.lean ====
section
/-! DEFINITION. The words of the machine: the widths of 00_scope.md R4 and 30_encoding.md R50 to R53, each a bit vector
under the name the spec gives it. -/

namespace Sys2Proof

/-- A seed operand, an identifier, a counter, a block or a result: 64 bits (R4). -/
abbrev Word64 := BitVec 64

/-- A subkey word or a half of the block: 32 bits (R4). -/
abbrev Word32 := BitVec 32

/-- The 56 significant bits of a legal seed (R4, R101). -/
abbrev Seed := BitVec 56

/-- A key half `C_r` or `D_r`: 28 bits (R4, R112). -/
abbrev KeyHalf := BitVec 28

/-- A raw subkey `K_r`: 48 bits (R4, R112). -/
abbrev RawSubkey := BitVec 48

/-- A chunk: one of the eight 6-bit groups of a 48-bit value (R9). -/
abbrev Chunk := BitVec 6

/-- A command word: 66 bits (R51). -/
abbrev CmdWord := BitVec 66

/-- A response word: 66 bits (R53). -/
abbrev RspWord := BitVec 66

/-- The 32 subkey words `SK[0..31]` (R12). -/
abbrev SubkeyWords := Vector Word32 32

end Sys2Proof
end

