-- ==== Sys2Proof/Machine/Bits.lean ====
section
/-! DEFINITION. The bit operations every rule uses: `select` (40_shared_tables.md R71), `rotl_N` (00_scope.md R6) and the
6-bit chunks of a 48-bit value (00_scope.md R9, 42_key_schedule.md R113). -/

namespace Sys2Proof.Machine

/-- `select(T, v, w)` of R71: position j of the result (counted from 1 at the most significant bit) holds the bit of `v` at
position `T[j]`, which is bit `w - T[j]`. -/
def select {n w : Nat} (T : Vector Nat n) (v : BitVec w) : BitVec n :=
  BitVec.ofNat n (T.toList.foldl (fun acc p => 2 * acc + (v.getLsbD (w - p)).toNat) 0)

/-- `rotl_N(v, n)` of R6, for `0 < n < N`. -/
def rotl {w : Nat} (v : BitVec w) (n : Nat) : BitVec w := (v <<< n) ||| (v >>> (w - n))

/-- Chunk `i + 1` of a 48-bit value, chunk 1 most significant: bits `47 - 6i` down to `42 - 6i` (R113, R132). -/
def chunk (x : BitVec 48) (i : Fin 8) : Chunk := x.extractLsb' (42 - 6 * i.val) 6

end Sys2Proof.Machine
end

