-- ==== Sys2Proof/Machine/KeySchedule.lean ====
section
/-! DEFINITION. DES_key_scheduler: the function KS (42_key_schedule.md R111 to R114). -/

namespace Sys2Proof.Machine

/-- `C_0`: positions 1 to 28 of `select(PC1, k, 64)` (R112). -/
def keyHalfC (k : Word64) : KeyHalf := (select pc1 k).extractLsb' 28 28

/-- `D_0`: positions 29 to 56 of `select(PC1, k, 64)` (R112). -/
def keyHalfD (k : Word64) : KeyHalf := (select pc1 k).extractLsb' 0 28

/-- The rounds of RAWKEYS from the halves before them (R112): rotate both halves, select the raw subkey, go on from the
rotated halves. -/
def rawKeysFrom (c d : KeyHalf) : List Nat → List RawSubkey
  | [] => []
  | n :: amounts => select pc2 (rotl c n ++ rotl d n) :: rawKeysFrom (rotl c n) (rotl d n) amounts

/-- `RAWKEYS(k)` of R112: the raw subkeys `K_1` to `K_16`. -/
def rawKeys (k : Word64) : List RawSubkey := rawKeysFrom (keyHalfC k) (keyHalfD k) rot

/-- Four chunks, each right-aligned in its own byte (R113). -/
def packChunks (a b c d : Chunk) : Word32 :=
  (a.setWidth 32 <<< 24) ||| (b.setWidth 32 <<< 16) ||| (c.setWidth 32 <<< 8) ||| d.setWidth 32

/-- The even word of `PACK(K)`: chunks 1, 3, 5, 7 (R113). -/
def packEven (K : RawSubkey) : Word32 := packChunks (chunk K 0) (chunk K 2) (chunk K 4) (chunk K 6)

/-- The odd word of `PACK(K)`: chunks 2, 4, 6, 8 (R113). -/
def packOdd (K : RawSubkey) : Word32 := packChunks (chunk K 1) (chunk K 3) (chunk K 5) (chunk K 7)

/-- `UNPACK(even, odd)` of R114: the 48 bits, read through the chunk fields only. -/
def unpack (even odd : Word32) : RawSubkey :=
  even.extractLsb' 24 6 ++ odd.extractLsb' 24 6 ++ even.extractLsb' 16 6 ++ odd.extractLsb' 16 6 ++
    even.extractLsb' 8 6 ++ odd.extractLsb' 8 6 ++ even.extractLsb' 0 6 ++ odd.extractLsb' 0 6

/-- The words of a list of raw subkeys, two for each: `sk[2(r-1)]` and `sk[2(r-1)+1]` (R111). -/
def packAll : List RawSubkey → List Word32
  | [] => []
  | K :: Ks => packEven K :: packOdd K :: packAll Ks

theorem rawKeysFrom_length (c d : KeyHalf) (amounts : List Nat) :
    (rawKeysFrom c d amounts).length = amounts.length := by
  induction amounts generalizing c d with
  | nil => rfl
  | cons n ns ih => simp [rawKeysFrom, ih]

theorem packAll_length (Ks : List RawSubkey) : (packAll Ks).length = 2 * Ks.length := by
  induction Ks with
  | nil => rfl
  | cons K Ks ih => simp only [packAll, List.length_cons, ih]; omega

/-- R111 makes 32 words. -/
theorem packAll_rawKeys_length (k : Word64) : (packAll (rawKeys k)).length = 32 := by
  rw [packAll_length, rawKeys, rawKeysFrom_length]; rfl

/-- `KS(k)` of R111: the 32 subkey words of a key. The function is normative, not the steps that compute it (R74). -/
def ks (k : Word64) : SubkeyWords := ⟨⟨packAll (rawKeys k)⟩, packAll_rawKeys_length k⟩

end Sys2Proof.Machine
end

