-- ==== Sys2Proof/Machine/Feistel.lean ====
section
/-! DEFINITION. The Feistel cipher core: the substitution boxes (40_shared_tables.md R82, R92), the round function F and the
function ENC (43_feistel_core.md R131, R132, R134). -/

namespace Sys2Proof.Machine

/-- `row(x) = 2*x[5] + x[0]` (R82). -/
def boxRow (x : Chunk) : BitVec 2 := x.extractLsb' 5 1 ++ x.extractLsb' 0 1

/-- `col(x) = x[4:1]` (R82). -/
def boxCol (x : Chunk) : BitVec 4 := x.extractLsb' 1 4

/-- `S_i(x)`, box `i + 1` (R82 to R90). -/
def sBox (i : Fin 8) (x : Chunk) : BitVec 4 :=
  BitVec.ofNat 4 ((sBoxes[i][(boxRow x).toNat]'(boxRow x).isLt)[(boxCol x).toNat]'(boxCol x).isLt)

/-- `SP_i[x]` of R92, box `i + 1`: the box's 4 bits in its own nibble (box 1 in bits 31:28), then the round permutation P. -/
def spBox (i : Fin 8) (x : Chunk) : Word32 :=
  select roundPerm ((sBox i x).setWidth 32 <<< (4 * (7 - i.val)))

/-- The eight lookups of a round, combined by OR (R91, R132). -/
def substitute (x : BitVec 48) : Word32 :=
  spBox 0 (chunk x 0) ||| spBox 1 (chunk x 1) ||| spBox 2 (chunk x 2) ||| spBox 3 (chunk x 3) |||
    spBox 4 (chunk x 4) ||| spBox 5 (chunk x 5) ||| spBox 6 (chunk x 6) ||| spBox 7 (chunk x 7)

/-- The round function `F(R, K)` of R132. -/
def roundF (R : Word32) (K : RawSubkey) : Word32 := substitute (select expansion R ^^^ K)

/-- The halves `(L_r, R_r)` between two rounds (R131). -/
structure Halves where
  L : Word32
  R : Word32
deriving DecidableEq, Repr

/-- One round (R131): `L_r = R_{r-1}`, `R_r = L_{r-1} ^ F(R_{r-1}, K_r)`. -/
def feistelRound (h : Halves) (K : RawSubkey) : Halves := ⟨h.R, h.L ^^^ roundF h.R K⟩

/-- `K_{r+1}`, read from the subkey words through UNPACK (R131, R135). -/
def roundKey (sk : SubkeyWords) (r : Fin 16) : RawSubkey :=
  unpack (sk[2 * r.val]'(by omega)) (sk[2 * r.val + 1]'(by omega))

/-- The 16 raw subkeys the subkey words hold, in round order. -/
def roundKeys (sk : SubkeyWords) : List RawSubkey := (List.finRange 16).map (roundKey sk)

/-- `L_0 || R_0 = select(IP, b, 64)` (R131). -/
def initialHalves (b : Word64) : Halves := ⟨(select ip b).extractLsb' 32 32, (select ip b).extractLsb' 0 32⟩

/-- `select(FP, R_16 || L_16, 64)`: the halves are NOT swapped after round 16 (R134). -/
def finalBlock (h : Halves) : Word64 := select fp (h.R ++ h.L)

/-- `ENC(sk, b)` of R131: 16 rounds between the initial and the final permutation. Only this function is normative (R139,
R74): here it is computed by the table-driven permutations that R139 allows; `RealisesEnc` says which other computations
conform. -/
def enc (sk : SubkeyWords) (b : Word64) : Word64 :=
  finalBlock ((roundKeys sk).foldl feistelRound (initialHalves b))

end Sys2Proof.Machine
end

