-- ==== Sys2Proof/Machine/Identifier.lean ====
section
/-! DEFINITION. stream_identifier_expansion: the function IDX (41_identifier.md R101). -/

namespace Sys2Proof.Machine

/-- The 7-bit group `g_j` of a seed, group 0 most significant (R101). -/
def seedGroup (s : Seed) (j : Fin 8) : BitVec 7 := s.extractLsb' (49 - 7 * j.val) 7

/-- Byte `j` of the identifier: the group, then a low bit forced to 0 (R101). -/
def identifierByte (s : Seed) (j : Fin 8) : BitVec 8 := seedGroup s j ++ 0#1

/-- `IDX(s)` of R101: the eight bytes, byte 0 most significant (R31). -/
def idx (s : Seed) : Word64 :=
  identifierByte s 0 ++ identifierByte s 1 ++ identifierByte s 2 ++ identifierByte s 3 ++
    identifierByte s 4 ++ identifierByte s 5 ++ identifierByte s 6 ++ identifierByte s 7

end Sys2Proof.Machine
end

