-- ==== Sys2Proof/Machine/Operands.lean ====
section
/-! DEFINITION. How a command uses its operand `arg` (30_encoding.md R57). It is used whole, as an unsigned 64-bit integer;
only IDGEN looks at a part of it. -/

namespace Sys2Proof.Machine

/-- IDGEN's comparison: all 64 bits of the operand against `2^56` (R57, R172). -/
def seedInRange (arg : Word64) : Bool := decide (arg.toNat < 2 ^ 56)

/-- The seed of a legal operand: bits 55:0 (R57, R102). -/
def seedOf (arg : Word64) : Seed := arg.extractLsb' 0 56

/-- INIT's operand: all 64 bits are the identifier; no bit is checked (R57, R115). -/
def identifierOf (arg : Word64) : Word64 := arg

/-- PRN's and UNIF's operand: all 64 bits are the counter; with the byte order of R32 it is the block itself (R33, R57). -/
def counterOf (arg : Word64) : Word64 := arg

end Sys2Proof.Machine
end

