-- ==== Sys2Proof/Syntax.lean ====
section
/-! DEFINITION. The commands of DESPRNG-CMD v1 (30_encoding.md R52): one constructor per row of the opcode table. Each
carries its whole 64-bit operand (R51, R57). -/

namespace Sys2Proof

/-- A command of the block. -/
inductive Instr where
  /-- IDGEN (R102): expand a seed into an identifier. -/
  | idgen (seed : Word64)
  /-- INIT (R115): start the stream of an identifier. -/
  | init (identifier : Word64)
  /-- PRN (R151): the 64-bit pseudorandom word of a counter. -/
  | prn (counter : Word64)
  /-- UNIF (R152): the uniform binary64 number of a counter. -/
  | unif (counter : Word64)
deriving DecidableEq, Repr

end Sys2Proof
end

