-- ==== Sys2Proof/WellFormed.lean ====
section
/-! DEFINITION. What is well formed. The command set has no reserved or illegal encoding and no illegal operand (R57,
R58), so every term of `Instr` is well formed. What can be ill formed is a number that stands for a command word (it
must fit the 66 wires of `cmd`) and a response word (status 11 is reserved, R54). -/

namespace Sys2Proof.WellFormed

/-- Every command is well formed (R57, R58): a seed of `2^56` or more is a legal command whose outcome is RANGE_ERR. -/
def instr : Instr → Bool
  | .idgen _ => true
  | .init _ => true
  | .prn _ => true
  | .unif _ => true

/-- A number stands for a command word when it fits the 66 bits of `cmd` (R51, R59). -/
def commandNumber (w : Nat) : Bool := decide (w < 2 ^ 66)

/-- A response word is well formed unless its status field is the reserved 11 (R54). -/
def responseWord (w : RspWord) : Bool := !(w.getLsbD 65 && w.getLsbD 64)

end Sys2Proof.WellFormed
end

