-- ==== Sys2Proof/Decode.lean ====
section
/-! DEFINITION. The command word of 30_encoding.md R51 and R52: the decoder, total on 66 bits (R58), and the encoder. -/

namespace Sys2Proof

/-- The field `cmd.arg`, bits 63:0 (R51). -/
def cmdArg (w : CmdWord) : Word64 := w.extractLsb' 0 64

/-- The command a 66-bit word stands for: the opcode map of R52 on bits 65 and 64. -/
def decode (w : CmdWord) : Instr :=
  match w.getLsbD 65, w.getLsbD 64 with
  | false, false => .idgen (cmdArg w)
  | false, true => .init (cmdArg w)
  | true, false => .prn (cmdArg w)
  | true, true => .unif (cmdArg w)

/-- Why a number is no command word. -/
inductive DecodeError where
  /-- The number does not fit the 66 bits of `cmd` (R51, R59). Safe: no such word can stand on the port. -/
  | tooWideForCommandPort
deriving DecidableEq, Repr

/-- Decode a number of any size: refused by name when it does not fit the command port. -/
def decodeNumber (w : Nat) : Except DecodeError Instr :=
  if WellFormed.commandNumber w then .ok (decode (BitVec.ofNat 66 w)) else .error .tooWideForCommandPort

/-- The opcode of a command (R52). -/
def opcode : Instr → BitVec 2
  | .idgen _ => 0b00#2
  | .init _ => 0b01#2
  | .prn _ => 0b10#2
  | .unif _ => 0b11#2

/-- The operand of a command (R51). -/
def operand : Instr → Word64
  | .idgen a => a
  | .init a => a
  | .prn a => a
  | .unif a => a

/-- The command word of a command: `op || arg` (R51, R60). -/
def encode (i : Instr) : CmdWord := opcode i ++ operand i

/-- What the decoder reads from an instruction whose `nbits` low bits are those of `w` and whose other bits are zero. The
command word is one 66-bit word, so bit k of `w` is bit k of `cmd`. -/
def decodeTableWord (nbits w : Nat) : Option Instr :=
  (decodeNumber (w % 2 ^ nbits)).toOption

end Sys2Proof
end

