-- ==== Sys2Proof/Config.lean ====
section
/-! DEFINITION. What an implementation fixes and the spec leaves open: the latencies (00_scope.md R5) as a type of
parameters, and the free values, opaque constants of which nothing can be proved. -/

namespace Sys2Proof.Config

/-- The open parameters `LAT_IDGEN`, `LAT_INIT`, `LAT_PRN`, `LAT_UNIF` of R5: positive integers, one constant for each
operation (R200). Each field is the number of cycles BEYOND THE FIRST, so every value of the type is legal
(`LAT_op = field + 1`). -/
structure Latencies where
  idgen : Nat
  init : Nat
  prn : Nat
  unif : Nat
deriving DecidableEq, Repr

/-- The least legal latencies: every operation takes one cycle. DESIGN CHOICE (log entry 3), unsafe: R5 leaves the
four numbers open. It is used for `State.reset` only. -/
def leastLatencies : Latencies := ⟨0, 0, 0, 0⟩

/-- FREE VALUE (log entry 2), safe: `ID` after an edge with `rst = 1` is unspecified (R22, R191). The arguments are the
number of the edge and the old contents, so that "kept", "cleared" and "anything" are all allowed. -/
opaque idAfterReset : Nat → Word64 → Word64

/-- FREE VALUE (log entry 2), safe: `SK[0..31]` after an edge with `rst = 1` are unspecified (R22, R191). -/
opaque skAfterReset : Nat → SubkeyWords → SubkeyWords

/-- FREE VALUE (log entry 6), safe: the `rsp` port at an edge with `rsp_valid = 0` is unspecified (R56). -/
opaque rspWhileInvalid : Nat → RspWord

end Sys2Proof.Config
end

