-- ==== Sys2Proof/Machine/State.lean ====
section
/-! DEFINITION. The state of one instance of the block, as plain data, and the state right after reset. The architectural
state is `cv`, `id`, `sk` (10_state.md R10); `slot` is the command in flight (30_encoding.md R55, R56); `pins` is what
the host drives; `lat` are the open parameters of 00_scope.md R5; `edge` and `taken` are the model's own (log entry 4). -/

namespace Sys2Proof.Machine

/-- The status codes a response can carry (30_encoding.md R54). Code 11 is reserved and has no constructor (U8). -/
inductive Status where
  /-- `00`: the operation was performed. -/
  | ok
  /-- `01`: DOC's RangeError (R172). -/
  | rangeErr
  /-- `10`: this spec's NoContext (R174). -/
  | noContext
deriving DecidableEq, Repr

/-- A response: the fields of the response word (R53). -/
structure Response where
  status : Status
  data : Word64
deriving DecidableEq, Repr

/-- The one command the block can hold (R55, R56). -/
inductive Slot where
  /-- No command in flight: the block can accept one. -/
  | empty
  /-- A command was accepted and performed. Its response becomes valid after `wait` more edges (it is valid when `wait`
  is 0) and is held until the host takes it. -/
  | holding (wait : Nat) (rsp : Response)
deriving DecidableEq, Repr

/-- What the host drives on the input ports at one rising edge of `clk` (R50). -/
structure Pins where
  rst : Bool
  cmdValid : Bool
  cmd : CmdWord
  rspReady : Bool
deriving DecidableEq, Repr

/-- The state of one instance. -/
structure State where
  /-- `CV`, context valid (R13). -/
  cv : Bool
  /-- `ID`, the identifier of the stream (R11). -/
  id : Word64
  /-- `SK[0..31]`, the subkey words (R12). -/
  sk : SubkeyWords
  /-- The command in flight (R55, R56, R191). -/
  slot : Slot
  /-- What the host drives at the coming edges, the next edge first; a quiet host after that (log entry 5). -/
  pins : List Pins
  /-- The latencies of the implementation (R5, R200): parameters; no step changes them (log entry 3). -/
  lat : Config.Latencies
  /-- The model's own: how many edges have gone by (log entry 4). -/
  edge : Nat
  /-- The model's own: the responses the host has taken, oldest first (log entry 4). -/
  taken : List Response
deriving DecidableEq, Repr

/-- Why the machine could stop with a fault. No step does: the transition of the block is total (R55, R201). -/
inductive Fault where
  /-- Raised by the host's decoder of response words (`decodeResponse`) on the reserved status 11, which the block never
  produces (R54, U8): the block is broken. Safe: it stops the host's reading, and no step raises it. -/
  | reservedStatus
deriving DecidableEq, Repr

/-- Why the machine could refuse an instruction. -/
inductive Refusal where
  /-- Raised by an arm of `exec` for an instruction that has no meaning yet. Safe: nothing is claimed of it. No arm of
  this model raises it. -/
  | notModelled (mnemonic : String)
deriving DecidableEq, Repr

/-- The block right after reset (R22, R191), built with latencies `lat`: the context invalid, no command in flight, the
host quiet. `ID` and `SK` are unspecified by R22: zero is a DESIGN CHOICE (log entry 1), unsafe. -/
def State.resetWith (lat : Config.Latencies) : State where
  cv := false
  id := 0#64
  sk := Vector.replicate 32 0#32
  slot := .empty
  pins := []
  lat := lat
  edge := 0
  taken := []

/-- The block right after reset. The latencies are the least legal ones: DESIGN CHOICE (log entry 3), unsafe. -/
def State.reset : State := State.resetWith Config.leastLatencies

end Sys2Proof.Machine
end

