-- ==== Sys2Proof/Machine/Flags.lean ====
section
/-! DEFINITION. The block's only flag, CV (10_state.md R13, R17): there are no condition codes. INIT sets it, reset clears
it, PRN and UNIF read it; nothing else touches it. -/

namespace Sys2Proof.Machine

/-- Whether `ID` and `SK` hold a stream context (R13). -/
def State.contextValid (s : State) : Bool := s.cv

/-- INIT sets CV; it stays 1 if it was 1 (R115). -/
def State.setContextValid (s : State) : State := { s with cv := true }

/-- Reset clears CV (R13, R191). -/
def State.clearContextValid (s : State) : State := { s with cv := false }

end Sys2Proof.Machine
end

