-- ==== Sys2Proof/Machine/Response.lean ====
section
/-! DEFINITION. The response word (30_encoding.md R53, R54): how the block lays a response out on `rsp`, and how a host
reads it. -/

namespace Sys2Proof.Machine

/-- The status code of R54. -/
def statusCode : Status → BitVec 2
  | .ok => 0b00#2
  | .rangeErr => 0b01#2
  | .noContext => 0b10#2

/-- The response word `status || data` (R53). -/
def encodeResponse (r : Response) : RspWord := statusCode r.status ++ r.data

/-- What a host reads from a response word. The reserved status 11 is a fault of the block, not a value (R54, U8). -/
def decodeResponse (w : RspWord) : Except Fault Response :=
  match w.getLsbD 65, w.getLsbD 64 with
  | false, false => .ok ⟨.ok, w.extractLsb' 0 64⟩
  | false, true => .ok ⟨.rangeErr, w.extractLsb' 0 64⟩
  | true, false => .ok ⟨.noContext, w.extractLsb' 0 64⟩
  | true, true => .error .reservedStatus

end Sys2Proof.Machine
end

