-- ==== Sys2Proof/Machine/Ops.lean ====
section
/-! DEFINITION. The named operations on the state that the commands and the step share: answering a command, raising an
error (60_exceptions.md R171), loading a context (42_key_schedule.md R115), and what one edge of `clk` does besides a
command (30_encoding.md R56, 70_reset_and_hazards.md R190 to R192). -/

namespace Sys2Proof.Machine

/-- What a quiet host drives: nothing (log entry 5). -/
def Pins.quiet : Pins := ⟨false, false, 0#66, false⟩

/-- What the host drives at the coming edge. -/
def State.pinsNow (s : State) : Pins := s.pins.headD Pins.quiet

/-- `respond(status, data)` (R6, R53) for an operation of latency `wait + 1`: the response is valid `wait + 1` edges after
the edge of acceptance (R5, R56; log entry 7). Nothing else is written. -/
def State.respond (s : State) (wait : Nat) (r : Response) : State := { s with slot := .holding wait r }

/-- `respond(OK, data)` (R53). -/
def State.respondOk (s : State) (wait : Nat) (data : Word64) : State := s.respond wait ⟨.ok, data⟩

/-- TAKING AN ERROR, `raise <Error>` (R171): respond with the error's status and data 0, and write no state. Nothing is
saved, nothing is entered and so nothing is returned from (R178, R179). -/
def State.raiseError (s : State) (wait : Nat) (status : Status) : State := s.respond wait ⟨status, 0#64⟩

/-- Write `ID` and all of `SK`: the two writes of INIT besides CV (R115). -/
def State.loadContext (s : State) (identifier : Word64) (words : SubkeyWords) : State :=
  { s with id := identifier, sk := words }

/-- Time goes by: one edge is over, the host's next pins come up. -/
def State.tick (s : State) : State := { s with pins := s.pins.tail, edge := s.edge + 1 }

/-- An edge with `rst = 1` (R190 to R192): CV is cleared, the command in flight is abandoned without a response, and `ID`
and `SK` are unspecified, which is a free value (log entry 2). -/
def State.resetEdge (s : State) : State :=
  { s.clearContextValid with
    id := Config.idAfterReset s.edge s.id
    sk := Config.skAfterReset s.edge s.sk
    slot := .empty }

/-- One more cycle of a command whose response is not valid yet (R56, R200). -/
def State.advance (s : State) : State :=
  match s.slot with
  | .empty => s
  | .holding wait r => { s with slot := .holding (wait - 1) r }

/-- The host takes the valid response; the block can accept again (R56). -/
def State.takeResponse (s : State) : State :=
  match s.slot with
  | .empty => s
  | .holding _ r => { s with slot := .empty, taken := s.taken ++ [r] }

/-- What happens at an edge. -/
inductive EdgeEvent where
  /-- `rst = 1` (R190). -/
  | reset
  /-- The command word on `cmd` is accepted (R56). -/
  | accept (cmd : CmdWord)
  /-- A command is in flight and its response is not valid yet. -/
  | wait
  /-- The valid response is taken (R56). -/
  | take
  /-- Nothing: no command is presented, or the host does not take the response. -/
  | hold
deriving DecidableEq, Repr

/-- `cmd_ready` at the coming edge: no command in flight, and `rst = 0` (R56, R190; log entry 7). -/
def State.cmdReady (s : State) : Bool := decide (s.slot = .empty) && !s.pinsNow.rst

/-- `rsp_valid` at the coming edge: the response of the command in flight has become valid, and `rst = 0` (R56, R190). -/
def State.rspValid (s : State) : Bool :=
  match s.slot with
  | .holding 0 _ => !s.pinsNow.rst
  | _ => false

/-- The `rsp` port at the coming edge: the response word while it is valid, a free value otherwise (R56; log entry 6). -/
def State.rspPort (s : State) : RspWord :=
  match s.rspValid, s.slot with
  | true, .holding _ r => encodeResponse r
  | _, _ => Config.rspWhileInvalid s.edge

/-- The handshake of R56 and the reset of R190: what the coming edge does. -/
def State.edgeEvent (s : State) : EdgeEvent :=
  if s.pinsNow.rst then .reset
  else if s.cmdReady && s.pinsNow.cmdValid then .accept s.pinsNow.cmd
  else if s.rspValid && s.pinsNow.rspReady then .take
  else match s.slot with
    | .holding (_ + 1) _ => .wait
    | _ => .hold

/-- The command the word on the port stands for: the fetch of the machine. -/
def fetchCommand (cmd : CmdWord) : Instr := decode cmd

/-- The state in which the coming edge accepts the command word whose `nbits` low bits are those of `w` and whose other bits
are 0: no command in flight, `rst = 0`, `cmd_valid = 1`, the word on `cmd` (R56). -/
def State.presentWord (s : State) (nbits w : Nat) : State :=
  { s with
    slot := .empty
    pins := { s.pinsNow with rst := false, cmdValid := true, cmd := BitVec.ofNat 66 (w % 2 ^ nbits) } :: s.pins.tail }

end Sys2Proof.Machine
end

