-- ==== Sys2Proof/Machine/Uniform.lean ====
section
/-! DEFINITION. The conversion U64toF64 (44_prng_top.md R153): the exact quotient `x / 2^64` rounded toward zero, as a
binary64 bit pattern. -/

namespace Sys2Proof.Machine

/-- `p`, the index of the most significant one bit of a nonzero `x` (R153). -/
def leadingOne (x : Word64) : Nat := x.toNat.log2

/-- The 52 fraction bits: the bits below the leading one, lower bits dropped, zeros appended (R153). -/
def fractionBits (x : Word64) : BitVec 52 :=
  if 52 ≤ leadingOne x then (x >>> (leadingOne x - 52)).extractLsb' 0 52
  else (x <<< (52 - leadingOne x)).extractLsb' 0 52

/-- `bexp = 959 + p`, the biased exponent (R153). -/
def biasedExponent (x : Word64) : BitVec 11 := BitVec.ofNat 11 (959 + leadingOne x)

/-- `U64toF64(x)` of R153. -/
def u64ToF64 (x : Word64) : Word64 :=
  if x = 0#64 then 0#64 else 0#1 ++ biasedExponent x ++ fractionBits x

end Sys2Proof.Machine
end

