-- ==== Sys2Proof/Machine/Commands.lean ====
section
/-! DEFINITION. The meanings of the four commands: what an accepted command does, in one atomic step (30_encoding.md R55).
Each follows its own rule, which governs (R102, R115, R151, R152). -/

namespace Sys2Proof.Machine

/-- IDGEN (R102): the identifier of a seed below `2^56`, RangeError otherwise; no state is written either way. -/
def execIdgen (seed : Word64) (s : State) : Host.Outcome State Fault Refusal :=
  if seedInRange seed then .next (s.respondOk s.lat.idgen (idx (seedOf seed)))
  else .next (s.raiseError s.lat.idgen .rangeErr)

/-- INIT (R115): ID, SK and CV are written in one atomic step; it never fails (R117: also when a context is held). -/
def execInit (identifier : Word64) (s : State) : Host.Outcome State Fault Refusal :=
  .next (((s.loadContext (identifierOf identifier) (ks (identifierOf identifier))).setContextValid).respondOk
    s.lat.init 0#64)

/-- PRN (R151): the encryption of the counter under the stream's subkeys, NoContext while CV = 0; no state is written. -/
def execPrn (counter : Word64) (s : State) : Host.Outcome State Fault Refusal :=
  if s.contextValid then .next (s.respondOk s.lat.prn (enc s.sk (counterOf counter)))
  else .next (s.raiseError s.lat.prn .noContext)

/-- UNIF (R152): the same word mapped to a binary64 in `[0, 1)`, NoContext while CV = 0; no state is written. -/
def execUnif (counter : Word64) (s : State) : Host.Outcome State Fault Refusal :=
  if s.contextValid then .next (s.respondOk s.lat.unif (u64ToF64 (enc s.sk (counterOf counter))))
  else .next (s.raiseError s.lat.unif .noContext)

end Sys2Proof.Machine
end

