-- ==== Sys2Proof/Machine/Dispatch.lean ====
section
/-! DEFINITION. The dispatch: one arm per command of 30_encoding.md R52. -/

namespace Sys2Proof.Machine

def exec (i : Instr) (s : State) : Host.Outcome State Fault Refusal :=
  match i with
  | .idgen seed => Sys2Proof.Machine.execIdgen seed s
  | .init identifier => Sys2Proof.Machine.execInit identifier s
  | .prn counter => Sys2Proof.Machine.execPrn counter s
  | .unif counter => Sys2Proof.Machine.execUnif counter s

end Sys2Proof.Machine
end

