-- ==== Sys2Proof/Machine/Step.lean ====
section
/-! DEFINITION. One step of the machine: one rising edge of `clk` (30_encoding.md R55, R56; 70_reset_and_hazards.md R190). -/

namespace Sys2Proof.Machine

/-- One rising edge of `clk`. An accepted command is performed whole at its edge of acceptance (R55). -/
def step (s : State) : Host.Outcome State Fault Refusal :=
  match s.edgeEvent with
  | .reset => .next s.tick.resetEdge
  | .accept cmd => exec (fetchCommand cmd) s.tick
  | .wait => .next s.tick.advance
  | .take => .next s.tick.takeResponse
  | .hold => .next s.tick

/-- The state whose coming edge accepts the given command word. -/
def State.withFetchWord (s : State) (nbits w : Nat) : State := s.presentWord nbits w

end Sys2Proof.Machine
end

