-- ==== Sys2Proof/Machine/Transition.lean ====
section
/-! DEFINITION. The untimed transition of 30_encoding.md R55, as the spec writes it: a state and an accepted command give a
state and a response. It is not used by `step`; it is what the machine is held to. -/

namespace Sys2Proof.Machine

/-- The architectural state `S = (CV, ID, SK)` (R10, R55). -/
structure Arch where
  cv : Bool
  id : Word64
  sk : SubkeyWords
deriving DecidableEq, Repr

/-- The architectural part of the state. -/
def State.arch (s : State) : Arch := ⟨s.cv, s.id, s.sk⟩

/-- The state with another architectural part. -/
def State.withArch (s : State) (a : Arch) : State := { s with cv := a.cv, id := a.id, sk := a.sk }

/-- `step(S, cmd)` of R55. -/
def transition (S : Arch) : Instr → Arch × Response
  | .idgen arg =>
    if arg.toNat < 2 ^ 56 then (S, ⟨.ok, idx (arg.extractLsb' 0 56)⟩) else (S, ⟨.rangeErr, 0#64⟩)
  | .init arg => (⟨true, arg, ks arg⟩, ⟨.ok, 0#64⟩)
  | .prn arg => if S.cv then (S, ⟨.ok, enc S.sk arg⟩) else (S, ⟨.noContext, 0#64⟩)
  | .unif arg => if S.cv then (S, ⟨.ok, u64ToF64 (enc S.sk arg)⟩) else (S, ⟨.noContext, 0#64⟩)

/-- A sequence of commands, each wholly before the next (R38): the last state and the responses in command order. -/
def transitions (S : Arch) : List Instr → Arch × List Response
  | [] => (S, [])
  | i :: is => ((transitions (transition S i).1 is).1, (transition S i).2 :: (transitions (transition S i).1 is).2)

end Sys2Proof.Machine
end

