-- ==== Sys2Proof/Machine/Transaction.lean ====
section
/-! DEFINITION. The host's side of the handshake (30_encoding.md R56): how a host drives the ports to have one command
performed and answered, and the command sequences and pseudo-operations of 30_encoding.md R60. -/

namespace Sys2Proof.Machine

/-- How many edges go by between the edge of acceptance and the first edge at which the response is valid, that edge not
counted: `LAT_op - 1` (R5). -/
def latencyWait (lat : Config.Latencies) : Instr → Nat
  | .idgen _ => lat.idgen
  | .init _ => lat.init
  | .prn _ => lat.prn
  | .unif _ => lat.unif

/-- What a host drives to issue a command and take its response as soon as it is valid (R56): the command at the first
edge, nothing while the block works, `rsp_ready` at the last edge. DESIGN CHOICE (log entry 15): R56 lets a host present a
command and take its response later than this. -/
def transactionPins (lat : Config.Latencies) (i : Instr) : List Pins :=
  ⟨false, true, encode i, false⟩ ::
    (List.replicate (latencyWait lat i) Pins.quiet ++ [⟨false, false, 0#66, true⟩])

/-- How many edges a transaction takes. -/
def transactionEdges (lat : Config.Latencies) (i : Instr) : Nat := latencyWait lat i + 2

/-- The state in which the host drives `ps` first. -/
def State.driving (s : State) (ps : List Pins) : State := { s with pins := ps ++ s.pins }

/-- `n` edges of `clk`. -/
def runEdges (n : Nat) (s : State) : Host.Outcome State Fault Refusal := Host.Core.run Sys2Proof.core n s

/-- The command an edge accepts, if it accepts one. -/
def acceptedAt (s : State) : List Instr :=
  match s.edgeEvent with
  | .accept cmd => [fetchCommand cmd]
  | _ => []

/-- The commands accepted at the first `n` coming edges, in the order of their acceptance (R38). -/
def acceptedIn : Nat → State → List Instr
  | 0, _ => []
  | n + 1, s =>
    match step s with
    | .next t => acceptedAt s ++ acceptedIn n t
    | _ => acceptedAt s

/-- One whole transaction: the command is issued and its response is taken. -/
def transact (i : Instr) (s : State) : Host.Outcome State Fault Refusal :=
  runEdges (transactionEdges s.lat i) (s.driving (transactionPins s.lat i))

/-- A sequence of transactions, one after the other (R38, R60). -/
def transactAll : List Instr → State → Host.Outcome State Fault Refusal
  | [], s => .next s
  | i :: is, s =>
    match transact i s with
    | .next t => transactAll is t
    | .fault r => .fault r
    | .refused r => .refused r

/-- The line `RESET`: one assertion of `rst` (R60). DESIGN CHOICE (log entry 15): the assertion lasts exactly one edge,
where R60 gives no length and R190 asks for at least one edge, and the host drives 0 on its other inputs meanwhile. -/
def assertReset (s : State) : Host.Outcome State Fault Refusal :=
  runEdges 1 (s.driving [⟨true, false, 0#66, false⟩])

/-- The host's reaction to IDGEN's response in `SEED` (R60): INIT with the identifier if the status is OK, and no INIT
otherwise. -/
def seedFollowUp (t : State) : Host.Outcome State Fault Refusal :=
  match t.taken.getLast? with
  | some ⟨.ok, d⟩ => transact (.init d) t
  | _ => .next t

/-- The pseudo-operation `SEED s` (R60). -/
def seedOperation (seed : Word64) (s : State) : Host.Outcome State Fault Refusal :=
  match transact (.idgen seed) s with
  | .next t => seedFollowUp t
  | .fault r => .fault r
  | .refused r => .refused r

end Sys2Proof.Machine
end

