-- ==== Sys2Proof/Machine/Assembly.lean ====
section
/-! DEFINITION. The textual notation of 30_encoding.md R60: lines of a command sequence, how they are read, written and run.
Text is a list of characters. The notation is the host's; the block never sees it. -/

namespace Sys2Proof.Machine

/-- A line of a command sequence (R60): a command, `RESET`, or a pseudo-operation. -/
inductive Line where
  | command (i : Instr)
  | reset
  | seed (s : Word64)
  | draw (c : Word64)
  | drawf (c : Word64)
deriving DecidableEq, Repr

/-- Why a text is no line of the notation. -/
inductive LineError where
  /-- The first word is no mnemonic, no pseudo-operation and not RESET. -/
  | unknownMnemonic
  /-- The operand is missing, is not a number, or something follows it. -/
  | badOperand
  /-- The operand does not fit 64 bits, or has more than 16 hexadecimal digits. -/
  | operandTooLong
deriving DecidableEq, Repr

/-- The hexadecimal digit of a value below 16, upper case as the spec prints it. -/
def hexChar (d : Nat) : Char := if d < 10 then Char.ofNat (48 + d) else Char.ofNat (55 + d)

/-- The last `k` hexadecimal digits of a number, most significant first. -/
def hexDigits : Nat → Nat → List Char
  | 0, _ => []
  | k + 1, n => hexDigits k (n / 16) ++ [hexChar (n % 16)]

/-- A 64-bit value as the notation writes it: `0x` and 16 hexadecimal digits. -/
def showWord (v : Word64) : List Char := '0' :: 'x' :: hexDigits 16 v.toNat

/-- The value of a digit in a base of 10 or 16; DESIGN CHOICE (log entry 10): lower-case digits are read as well. -/
def digitValue (base : Nat) (c : Char) : Option Nat :=
  let n := c.toNat
  let v := if 48 ≤ n ∧ n ≤ 57 then n - 48
    else if 65 ≤ n ∧ n ≤ 70 then n - 55
    else if 97 ≤ n ∧ n ≤ 102 then n - 87
    else 16
  if v < base then some v else none

/-- The value of a string of digits after the value `acc` of the digits before it. -/
def digitsValue (base acc : Nat) : List Char → Option Nat
  | [] => some acc
  | c :: cs =>
    match digitValue base c with
    | some d => digitsValue base (base * acc + d) cs
    | none => none

/-- An operand: `0x` and 1 to 16 hexadecimal digits, or a decimal number below `2^64` (R60). -/
def readOperand (cs : List Char) : Except LineError Word64 :=
  match cs with
  | '0' :: 'x' :: d :: ds =>
    match digitsValue 16 0 (d :: ds) with
    | some v => if (d :: ds).length ≤ 16 then .ok (BitVec.ofNat 64 v) else .error .operandTooLong
    | none => .error .badOperand
  | [] => .error .badOperand
  | d :: ds =>
    match digitsValue 10 0 (d :: ds) with
    | some v => if v < 2 ^ 64 then .ok (BitVec.ofNat 64 v) else .error .operandTooLong
    | none => .error .badOperand

/-- The text before a comment (R60). -/
def stripComment (cs : List Char) : List Char := cs.takeWhile fun c => c != ';'

/-- Add a character in front of the first of a list of words. -/
def consWord (c : Char) : List (List Char) → List (List Char)
  | [] => [[c]]
  | w :: ws => (c :: w) :: ws

/-- The pieces of a text between spaces and tabs, empty pieces included. -/
def splitSpaces : List Char → List (List Char)
  | [] => [[]]
  | c :: cs => if c = ' ' ∨ c = '\t' then [] :: splitSpaces cs else consWord c (splitSpaces cs)

/-- The words of a text. -/
def splitWords (cs : List Char) : List (List Char) := (splitSpaces cs).filter fun w => !w.isEmpty

/-- What a mnemonic or a pseudo-operation makes of its operand (R60). -/
def lineOf (mnemonic : List Char) : Option (Word64 → Line) :=
  if mnemonic = ['I', 'D', 'G', 'E', 'N'] then some fun a => .command (.idgen a)
  else if mnemonic = ['I', 'N', 'I', 'T'] then some fun a => .command (.init a)
  else if mnemonic = ['P', 'R', 'N'] then some fun a => .command (.prn a)
  else if mnemonic = ['U', 'N', 'I', 'F'] then some fun a => .command (.unif a)
  else if mnemonic = ['S', 'E', 'E', 'D'] then some .seed
  else if mnemonic = ['D', 'R', 'A', 'W'] then some .draw
  else if mnemonic = ['D', 'R', 'A', 'W', 'F'] then some .drawf
  else none

/-- Read one line (R60): `<mnemonic> <operand>`, or `RESET`; a comment starts at a semicolon. -/
def readLine (cs : List Char) : Except LineError Line :=
  match splitWords (stripComment cs) with
  | [] => .error .unknownMnemonic
  | m :: operands =>
    if m = ['R', 'E', 'S', 'E', 'T'] then
      if operands = [] then .ok .reset else .error .badOperand
    else
      match lineOf m, operands with
      | none, _ => .error .unknownMnemonic
      | some f, [o] => (readOperand o).map f
      | some _, _ => .error .badOperand

/-- A line in its canonical spelling: the operand as `0x` and 16 digits. -/
def showLine : Line → List Char
  | .command (.idgen a) => ['I', 'D', 'G', 'E', 'N', ' '] ++ showWord a
  | .command (.init a) => ['I', 'N', 'I', 'T', ' '] ++ showWord a
  | .command (.prn a) => ['P', 'R', 'N', ' '] ++ showWord a
  | .command (.unif a) => ['U', 'N', 'I', 'F', ' '] ++ showWord a
  | .reset => ['R', 'E', 'S', 'E', 'T']
  | .seed a => ['S', 'E', 'E', 'D', ' '] ++ showWord a
  | .draw a => ['D', 'R', 'A', 'W', ' '] ++ showWord a
  | .drawf a => ['D', 'R', 'A', 'W', 'F', ' '] ++ showWord a

/-- The name of a status (R54). -/
def showStatus : Status → List Char
  | .ok => ['O', 'K']
  | .rangeErr => ['R', 'A', 'N', 'G', 'E', '_', 'E', 'R', 'R']
  | .noContext => ['N', 'O', '_', 'C', 'O', 'N', 'T', 'E', 'X', 'T']

/-- A response as the notation writes it after the arrow (R60). -/
def showResponse (r : Response) : List Char := showStatus r.status ++ ' ' :: showWord r.data

/-- The encoding of a command line: the command word as 17 hexadecimal digits, the first of them `op` (R60). DESIGN CHOICE
(log entry 10): no `0x` in front, as in the programs of 95_test_vectors.md section 9; R60's own example writes it. -/
def showEncoding (i : Instr) : List Char := hexDigits 17 (encode i).toNat

/-- Run one line on an instance (R60). `DRAW` is PRN and `DRAWF` is UNIF. -/
def runLine : Line → State → Host.Outcome State Fault Refusal
  | .command i, s => transact i s
  | .reset, s => assertReset s
  | .seed x, s => seedOperation x s
  | .draw c, s => transact (.prn c) s
  | .drawf c, s => transact (.unif c) s

/-- Run a command sequence, line by line. -/
def runLines : List Line → State → Host.Outcome State Fault Refusal
  | [], s => .next s
  | l :: ls, s =>
    match runLine l s with
    | .next t => runLines ls t
    | .fault r => .fault r
    | .refused r => .refused r

end Sys2Proof.Machine
end

