-- ==== Sys2Proof/Safety.lean ====
section
/-! DEFINITION. The terms in which statements speak of good states and good answers: the context invariant (10_state.md
R23), the shape of subkey words and responses, parity positions, Hamming distance, and the value of a binary64 word. -/

namespace Sys2Proof.Machine

/-- The context invariant: `CV = 1` implies `SK[0..31] = KS(ID)` (R23). -/
abbrev State.ContextInv (s : State) : Prop := s.cv = true → s.sk = ks s.id

/-- The bits of a subkey word that no chunk uses: [31:30], [23:22], [15:14] and [7:6] (R12). -/
def padMask : Word32 := 0xC0C0C0C0#32

/-- The padding bits of all 32 subkey words are zero whenever `CV = 1` (R12). -/
abbrev State.PadsZero (s : State) : Prop := s.cv = true → ∀ i : Fin 32, s.sk[i] &&& padMask = 0#32

/-- A response whose status is not OK carries data 0 (R53). -/
abbrev Response.Wf (r : Response) : Prop := r.status ≠ .ok → r.data = 0#64

/-- The response in flight, if any. -/
def Slot.response : Slot → Option Response
  | .empty => none
  | .holding _ r => some r

/-- Every response in flight or taken is well formed (R53). -/
abbrev State.ResponsesWf (s : State) : Prop :=
  (∀ r ∈ s.slot.response, r.Wf) ∧ ∀ r ∈ s.taken, r.Wf

/-- The invariant of the machine. -/
structure State.Inv (s : State) : Prop where
  context : s.ContextInv
  pads : s.PadsZero
  responses : s.ResponsesWf

/-- A response that tells the host of its own bug: a number was asked for before any INIT (R174, R194). -/
def Response.isHostBug (r : Response) : Bool := decide (r.status = .noContext)

/-- No host drives `rst` at the first `n` coming edges. -/
abbrev State.NoResetFor (s : State) (n : Nat) : Prop := ∀ p ∈ s.pins.take n, p.rst = false

/-- The host takes no response at the first `n` coming edges. -/
abbrev State.NotReadyFor (s : State) (n : Nat) : Prop := ∀ p ∈ s.pins.take n, p.rspReady = false

/-- Two states no host can tell apart: they may differ in `ID`, which nothing reads (R11), and in `SK` while `CV = 0`
(R22). -/
structure State.SameToTheHost (s t : State) : Prop where
  cv : s.cv = t.cv
  sk : s.cv = true → s.sk = t.sk
  slot : s.slot = t.slot
  pins : s.pins = t.pins
  lat : s.lat = t.lat
  edge : s.edge = t.edge
  taken : s.taken = t.taken

/-- Not an INIT: a command that writes no state (R14). -/
def isPure : Instr → Bool
  | .idgen _ => true
  | .init _ => false
  | .prn _ => true
  | .unif _ => true

/-- The response that an outcome's next state has in flight. -/
def answerOf (o : Host.Outcome State Fault Refusal) : Option Response :=
  match o with
  | .next s => s.slot.response
  | .fault _ => none
  | .refused _ => none

/-- The eight parity positions of a key: bits 56, 48, 40, 32, 24, 16, 8 and 0 (R11, R31). -/
def parityMask : Word64 := 0x0101010101010101#64

/-- `popcount(v)`, the number of one bits (R6). -/
def popcount {w : Nat} (v : BitVec w) : Nat := (List.range w).countP fun i => v.getLsbD i

/-- The biased exponent of a binary64 word (R53). -/
def f64Exponent (b : Word64) : Nat := (b.extractLsb' 52 11).toNat

/-- The fraction of a binary64 word (R53). -/
def f64Fraction (b : Word64) : Nat := (b.extractLsb' 0 52).toNat

/-- A finite binary64 word that is not negative: sign 0 and not an infinity or a NaN (R53, R153). -/
def f64NonNegFinite (b : Word64) : Bool := !b.getLsbD 63 && decide (f64Exponent b < 2047)

/-- The value of a non-negative finite binary64 word: exponent biased by 1023, hidden leading one, subnormals when the
biased exponent is 0 (R153; PRESUMED for subnormals, log entry 14, safe). -/
def f64Value (b : Word64) : ℚ :=
  if f64Exponent b = 0 then (f64Fraction b : ℚ) * 2 ^ (-1074 : ℤ)
  else ((2 ^ 52 + f64Fraction b : ℕ) : ℚ) * 2 ^ ((f64Exponent b : ℤ) - 1075)

end Sys2Proof.Machine
end

