-- ==== Sys2Proof/Certificates/Slice0/Obligations.lean ====
section
/-! DEFINITION. The statements for the provers. Each is about the machine, for every state and operand it names; the rule
each formalises stands in its docstring. -/

open Sys2Proof Sys2Proof.Machine

/-! ## Command words -/

/-- Decoding the encoding of a command gives the command back, and every 66-bit word is the encoding of what it decodes to:
any 66 bits decode to exactly one command (R58). -/
def Obligations.DecodeAndEncodeAgree : Prop :=
  (∀ i : Instr, decode (encode i) = i) ∧ ∀ w : CmdWord, encode (decode w) = w

/-- Command words written out in the spec (R60 and the programs P1 to P3 of 95_test_vectors.md) decode to the commands they
stand for. -/
def Obligations.WrittenOutWordsDecode : Prop :=
  decode 0x20000000000000001#66 = .prn 0x1#64 ∧
  decode 0x1FEFEFEFEFEFEFEFE#66 = .init 0xFEFEFEFEFEFEFEFE#64 ∧
  decode 0x000FFFFFFFFFFFFFF#66 = .idgen 0x00FFFFFFFFFFFFFF#64 ∧
  decode 0x30123456789ABCDEF#66 = .unif 0x0123456789ABCDEF#64

/-- A host reads from a response word the response the block wrote, and reports the reserved status 11, and only it, as a fault
of the block (R53, R54). -/
def Obligations.ResponseWordsReadBack : Prop :=
  (∀ r : Response, decodeResponse (encodeResponse r) = .ok r) ∧
  ∀ w : RspWord, decodeResponse w = .error .reservedStatus ↔ w.getLsbD 65 = true ∧ w.getLsbD 64 = true

/-- Reading a line of the notation gives back the line that was written (R60). -/
def Obligations.ReadLineReadsWhatShowLineWrites : Prop :=
  ∀ l : Line, readLine (showLine l) = .ok l

/-! ## One edge of the clock -/

/-- R56: a command presented while `rst = 0` and the block is ready is accepted, and the step is exactly the execution of the
decoded command, one edge later. (That the command is performed whole at its edge of acceptance, CV, ID and SK changing
there, is the model's reading of R55: log entry 7, DEDUCED.) -/
def Obligations.StepRunsTheAcceptedCommand : Prop :=
  ∀ s : State, s.pinsNow.rst = false → s.pinsNow.cmdValid = true → s.slot = .empty →
    s.cmdReady = true ∧
    step s = exec (decode s.pinsNow.cmd) { s with pins := s.pins.tail, edge := s.edge + 1 }

/-- The step after `withFetchWord` runs the command that the word decodes to. The model's choices, not the spec's: what
`withFetchWord` stands for (log entry 8, DESIGN CHOICE), which numbers are command words (log entry 9, DESIGN CHOICE), and
that the command is performed whole at its edge of acceptance (log entry 7, DEDUCED). -/
def Obligations.FetchedWordIsTheNextCommand : Prop :=
  ∀ (s : State) (nbits w : Nat) (i : Instr), decodeTableWord nbits w = some i →
    step (s.withFetchWord nbits w) =
      exec i { s with slot := .empty, pins := s.pins.tail, edge := s.edge + 1 }

/-- R55, R201: `step` is total; the block never stops. -/
def Obligations.StepIsTotal : Prop := ∀ s : State, ∃ t : State, step s = .next t

/-- R5, R200: no step changes a latency; each step uses up the pins of one edge. -/
def Obligations.StepKeepsLatencies : Prop :=
  ∀ s t : State, step s = .next t → t.lat = s.lat ∧ t.pins = s.pins.tail ∧ t.edge = s.edge + 1

/-- R190 to R192: at an edge with `rst = 1`, whatever the block was doing, it accepts nothing, presents nothing, clears CV and
abandons the command in flight without a response; then it is idle and ready. (That a response which is valid at such an edge
is not taken there, even with `rsp_ready = 1`, is the model's reading: log entry 7, DEDUCED.) -/
def Obligations.ResetEdgeClearsAndAbandons : Prop :=
  ∀ s : State, s.pinsNow.rst = true →
    s.cmdReady = false ∧ s.rspValid = false ∧
    ∃ t : State, step s = .next t ∧ t.cv = false ∧ t.slot = .empty ∧ t.taken = s.taken ∧ t.lat = s.lat ∧
      t.pins = s.pins.tail ∧ (t.pinsNow.rst = false → t.cmdReady = true ∧ t.rspValid = false)

/-- R22, R191: the state after reset, for every choice of latencies: CV is 0, no command is in flight, and with `rst = 0` the
block is ready and presents no response. (`ID` and `SK` are not mentioned: R22 leaves them unspecified.) -/
def Obligations.StateAfterReset : Prop :=
  ∀ (lat : Config.Latencies) (ps : List Pins), (ps.headD Pins.quiet).rst = false →
    (State.resetWith lat).cv = false ∧ (State.resetWith lat).slot = .empty ∧
    ((State.resetWith lat).driving ps).cmdReady = true ∧ ((State.resetWith lat).driving ps).rspValid = false

/-- R56, R200: from its acceptance on, a command's response is not valid and the block is not ready for `LAT_op - 1` edges, and
`LAT_op` edges after acceptance the response is valid, is the one R55 gives, and stands on `rsp`; `LAT_op` is the
parameter of the operation. Nobody may assert `rst` meanwhile; what else the host drives does not matter. (That the count
is read at the edge `LAT_op` after the edge of acceptance is the model's reading: log entry 7, DEDUCED.) -/
def Obligations.ResponseValidAfterLatency : Prop :=
  ∀ s : State, s.slot = .empty → s.pinsNow.rst = false → s.pinsNow.cmdValid = true →
    s.NoResetFor (latencyWait s.lat (decode s.pinsNow.cmd) + 1) →
    (∀ k : Nat, k < latencyWait s.lat (decode s.pinsNow.cmd) →
      ∃ t : State, runEdges (k + 1) s = .next t ∧ t.rspValid = false ∧ t.cmdReady = false ∧ t.taken = s.taken) ∧
    ∃ t : State, runEdges (latencyWait s.lat (decode s.pinsNow.cmd) + 1) s = .next t ∧
      t.cmdReady = false ∧ t.taken = s.taken ∧
      (t.pinsNow.rst = false → t.rspValid = true ∧
        t.rspPort = encodeResponse (transition s.arch (decode s.pinsNow.cmd)).2)

/-- R56: a valid response is held unchanged, and no command is accepted, for any number of edges at which the host is not
ready: on the ports, unless `rst` is 1 at the edge reached, `rsp_valid` is 1 and `rsp` is the word of that same response. -/
def Obligations.ResponseHeldWhileHostNotReady : Prop :=
  ∀ (s : State) (r : Response) (n : Nat), s.slot = .holding 0 r → s.NoResetFor n → s.NotReadyFor n →
    ∃ t : State, runEdges n s = .next t ∧ t.slot = .holding 0 r ∧ t.arch = s.arch ∧ t.taken = s.taken ∧
      t.cmdReady = false ∧ (t.pinsNow.rst = false → t.rspValid = true ∧ t.rspPort = encodeResponse r)

/-- R56: at an edge with `rsp_ready = 1` the valid response is taken, `rsp_valid` falls and `cmd_ready` rises. -/
def Obligations.ReadyHostTakesTheResponse : Prop :=
  ∀ (s : State) (r : Response), s.slot = .holding 0 r → s.pinsNow.rst = false → s.pinsNow.rspReady = true →
    ∃ t : State, step s = .next t ∧
      t = { s with slot := .empty, taken := s.taken ++ [r], pins := s.pins.tail, edge := s.edge + 1 } ∧
      t.rspValid = false ∧ (t.pinsNow.rst = false → t.cmdReady = true)

/-! ## The meanings of the commands

`exec` is stated for every state. Where a response is already in flight, as in no state in which a step calls `exec`, that
the new response replaces it is the model's choice (log entry 11, DESIGN CHOICE). What is in flight, `.holding w r`, becomes
valid `w + 1` edges after acceptance (log entry 7, DEDUCED). -/

/-- R101, R102: IDGEN with a seed below `2^56` is answered OK with the identifier whose bit `k + k/7 + 1` is seed bit `k` and
whose eight parity bits are 0; nothing else changes. -/
def Obligations.IdgenOfLegalSeedCompletes : Prop :=
  ∀ (seed : Word64) (s : State), seed.toNat < 2 ^ 56 →
    ∃ d : Word64, exec (.idgen seed) s = .next { s with slot := .holding s.lat.idgen ⟨.ok, d⟩ } ∧
      d = idx (seed.extractLsb' 0 56) ∧
      (∀ k : Nat, k < 56 → d.getLsbD (k + k / 7 + 1) = seed.getLsbD k) ∧
      ∀ j : Nat, j < 8 → d.getLsbD (8 * j) = false

/-- R172: IDGEN is answered RANGE_ERR with data 0, with no other effect, exactly when its operand is `2^56` or more. -/
def Obligations.IdgenRangeErrorExactly : Prop :=
  ∀ (seed : Word64) (s : State),
    exec (.idgen seed) s = .next { s with slot := .holding s.lat.idgen ⟨.rangeErr, 0#64⟩ } ↔ 2 ^ 56 ≤ seed.toNat

/-- R115: INIT writes ID, all of SK and CV in one step, is answered OK with data 0, and changes nothing else; in every state
and for every operand. -/
def Obligations.InitCompletes : Prop :=
  ∀ (k : Word64) (s : State),
    exec (.init k) s =
      .next { s with cv := true, id := k, sk := ks k, slot := .holding s.lat.init ⟨.ok, 0#64⟩ }

/-- R151: with a context PRN is answered OK with the encryption of the counter; nothing else changes. -/
def Obligations.PrnCompletes : Prop :=
  ∀ (c : Word64) (s : State), s.cv = true →
    exec (.prn c) s = .next { s with slot := .holding s.lat.prn ⟨.ok, enc s.sk c⟩ }

/-- R152: with a context UNIF is answered OK with the converted encryption of the counter, a binary64 word whose value lies in
`[0, 1)`; nothing else changes. -/
def Obligations.UnifCompletesInUnitInterval : Prop :=
  ∀ (c : Word64) (s : State), s.cv = true →
    ∃ d : Word64, exec (.unif c) s = .next { s with slot := .holding s.lat.unif ⟨.ok, d⟩ } ∧
      d = u64ToF64 (enc s.sk c) ∧ f64NonNegFinite d = true ∧ 0 ≤ f64Value d ∧ f64Value d < 1

/-- R174: PRN and UNIF are answered NO_CONTEXT with data 0, with no other effect, exactly when CV = 0. -/
def Obligations.NoContextExactlyWithoutContext : Prop :=
  ∀ (c : Word64) (s : State),
    (exec (.prn c) s = .next { s with slot := .holding s.lat.prn ⟨.noContext, 0#64⟩ } ↔ s.cv = false) ∧
    (exec (.unif c) s = .next { s with slot := .holding s.lat.unif ⟨.noContext, 0#64⟩ } ↔ s.cv = false)

/-- R155: in a state with a context, UNIF's data is the conversion of PRN's. -/
def Obligations.UnifIsConvertedPrn : Prop :=
  ∀ (c w : Word64) (s : State), s.cv = true → answerOf (exec (.prn c) s) = some ⟨.ok, w⟩ →
    answerOf (exec (.unif c) s) = some ⟨.ok, u64ToF64 w⟩

/-- R171: a command answered with an error has no effect but that answer, whose data is 0. -/
def Obligations.ErrorsWriteNoState : Prop :=
  ∀ (i : Instr) (s : State) (r : Response), answerOf (exec i s) = some r → r.status ≠ .ok →
    r.data = 0#64 ∧ exec i s = .next { s with slot := .holding (latencyWait s.lat i) r }

/-- R54: RANGE_ERR comes from IDGEN only, NO_CONTEXT from PRN and UNIF with CV = 0 only, and every command can be answered OK. -/
def Obligations.StatusesByCommand : Prop :=
  ∀ (i : Instr) (s : State), ∃ r : Response, answerOf (exec i s) = some r ∧
    (r.status = .rangeErr ↔ ∃ a : Word64, i = .idgen a ∧ 2 ^ 56 ≤ a.toNat) ∧
    (r.status = .noContext ↔ s.cv = false ∧ ∃ c : Word64, i = .prn c ∨ i = .unif c)

/-- R35: every command is idempotent: the same command again gives the same response and the same state. (The second
command runs on a state with the first one's response in flight; that its response replaces that one, so that the whole
states are equal, is the model's choice: log entry 11, DESIGN CHOICE.) -/
def Obligations.CommandsAreIdempotent : Prop :=
  ∀ (i : Instr) (s t : State), exec i s = .next t → exec i t = .next t

/-- R117: a second INIT replaces the context: nothing of the old one remains. (The second INIT runs on a state with the
first one's response in flight; that its response replaces that one, so that the whole states are equal, is the model's
choice: log entry 11, DESIGN CHOICE.) -/
def Obligations.SecondInitReplacesTheContext : Prop :=
  ∀ (a b : Word64) (s t : State), exec (.init a) s = .next t → exec (.init b) t = exec (.init b) s

/-- R158: the reference vector. PRN is issued when the response of INIT has been taken. -/
def Obligations.ReferenceVector : Prop :=
  ∀ s : State, ∃ t : State,
    exec (.idgen 0#64) s = .next { s with slot := .holding s.lat.idgen ⟨.ok, 0#64⟩ } ∧
    exec (.init 0#64) s = .next t ∧ t.sk = Vector.replicate 32 0#32 ∧
    exec (.prn 0#64) { t with slot := .empty } = .next { t with slot := .holding t.lat.prn ⟨.ok, 0x8CA64DE9C1B123A7#64⟩ }

/-! ## The machine as a whole -/

/-- R23: every step keeps the context invariant, from every state that meets it. -/
def Obligations.StepKeepsContextInvariant : Prop :=
  ∀ s t : State, s.ContextInv → step s = .next t → t.ContextInv

/-- R12: every step keeps the padding bits of the subkey words zero while CV = 1. -/
def Obligations.StepKeepsSubkeyPaddingZero : Prop :=
  ∀ s t : State, s.PadsZero → step s = .next t → t.PadsZero

/-- R53: every step keeps the responses, in flight and taken, well formed: data 0 whenever the status is not OK. -/
def Obligations.StepKeepsResponsesWellFormed : Prop :=
  ∀ s t : State, s.ResponsesWf → step s = .next t → t.ResponsesWf

/-- The state after reset, with whatever the host is going to drive, meets the invariant. -/
def Obligations.ResetMeetsTheInvariants : Prop :=
  ∀ (lat : Config.Latencies) (ps : List Pins), ((State.resetWith lat).driving ps).Inv

/-- R23: in every state reachable from reset, whatever the host drives, CV = 1 implies `SK[0..31] = KS(ID)`. -/
def Obligations.ReachableStatesHoldTheContextInvariant : Prop :=
  ∀ (lat : Config.Latencies) (ps : List Pins) (n : Nat) (t : State),
    runEdges n ((State.resetWith lat).driving ps) = .next t → t.cv = true → t.sk = ks t.id

/-- R10, R14: a step changes CV, ID or SK only at an edge with `rst = 1` or by accepting an INIT, and then to that INIT's
context. (That they change at the very edge that accepts the INIT is the model's reading of R55: log entry 7, DEDUCED.) -/
def Obligations.OnlyInitAndResetChangeTheContext : Prop :=
  ∀ s t : State, step s = .next t → t.arch ≠ s.arch →
    s.pinsNow.rst = true ∨
      ∃ k : Word64, s.edgeEvent = .accept (encode (.init k)) ∧ t.arch = ⟨true, k, ks k⟩

/-- R11, R22: nothing the host can see depends on ID, nor on SK while CV = 0: two states that differ only there show the same
ports and stay indistinguishable. (The clause on `rsp` while `rsp_valid = 0` is the model's choice: R56 leaves that value
unspecified, and log entry 6, DESIGN CHOICE, lets it depend on the edge number alone.) -/
def Obligations.HiddenStateIsUnobservable : Prop :=
  ∀ s t s' t' : State, s.SameToTheHost t → step s = .next s' → step t = .next t' →
    s'.SameToTheHost t' ∧ s.cmdReady = t.cmdReady ∧ s.rspValid = t.rspValid ∧ s.rspPort = t.rspPort

/-- R38, R55: whatever the host drives (but `rst`), the machine performs the accepted commands one after the other as R55's
transition, and gives exactly one response for each, in order: those taken and at most one in flight. Runs in which `rst` is 1 at an edge are left to
ResetEdgeClearsAndAbandons. (That CV, ID and SK already reflect the command in flight is the model's reading of R55: log
entry 7, DEDUCED.) -/
def Obligations.RunsRefineTheTransition : Prop :=
  ∀ (n : Nat) (s t : State), s.slot = .empty → s.NoResetFor n → runEdges n s = .next t →
    t.arch = (transitions s.arch (acceptedIn n s)).1 ∧
    t.taken ++ t.slot.response.toList = s.taken ++ (transitions s.arch (acceptedIn n s)).2

/-- R55, R56: a host that issues a command to an idle block and takes the response gets R55's transition, after
`LAT_op + 1` edges, for every latency. (The number of edges rests on how the model counts `LAT_op`, log entry 7, DEDUCED, and
on a host that takes the response as soon as it is valid, log entry 15, DESIGN CHOICE.) -/
def Obligations.TransactionIsOneTransition : Prop :=
  ∀ (i : Instr) (s : State), s.slot = .empty →
    ∃ t : State, transact i s = .next t ∧ t.arch = (transition s.arch i).1 ∧
      t.taken = s.taken ++ [(transition s.arch i).2] ∧ t.slot = .empty ∧ t.pins = s.pins ∧ t.lat = s.lat ∧
      t.edge = s.edge + latencyWait s.lat i + 2

/-- R40: between two INITs, each response depends on its own command and the context alone: IDGEN, PRN and UNIF commands may
be issued in any order. -/
def Obligations.PureCommandsAnswerIndependently : Prop :=
  ∀ (cs : List Instr) (s : State), s.slot = .empty → (∀ i ∈ cs, isPure i = true) →
    ∃ t : State, transactAll cs s = .next t ∧ t.arch = s.arch ∧
      t.taken = s.taken ++ cs.map fun i => (transition s.arch i).2

/-- R156: the response to PRN and UNIF is a function of the counter and of the operand of the most recent INIT: not of what
came before that INIT, nor of the commands since. -/
def Obligations.NumbersDependOnLastInitOnly : Prop :=
  ∀ (s : State) (k c : Word64) (cs : List Instr), s.slot = .empty → (∀ i ∈ cs, isPure i = true) →
    (∃ t : State, transactAll (.init k :: (cs ++ [.prn c])) s = .next t ∧
      t.taken.getLast? = some ⟨.ok, enc (ks k) c⟩) ∧
    ∃ t : State, transactAll (.init k :: (cs ++ [.unif c])) s = .next t ∧
      t.taken.getLast? = some ⟨.ok, u64ToF64 (enc (ks k) c)⟩

/-- R60: `SEED s` starts the stream of the seed when it is legal, and issues no INIT when it is not. (When the host drives
what at the ports is the model's choice: log entry 15, DESIGN CHOICE.) -/
def Obligations.SeedOperationStartsTheStream : Prop :=
  ∀ (x : Word64) (s : State), s.slot = .empty →
    (x.toNat < 2 ^ 56 → ∃ t : State, seedOperation x s = .next t ∧
      t.arch = ⟨true, idx (x.extractLsb' 0 56), ks (idx (x.extractLsb' 0 56))⟩ ∧
      t.taken = s.taken ++ [⟨.ok, idx (x.extractLsb' 0 56)⟩, ⟨.ok, 0#64⟩]) ∧
    (2 ^ 56 ≤ x.toNat → ∃ t : State, seedOperation x s = .next t ∧ t.arch = s.arch ∧
      t.taken = s.taken ++ [⟨.rangeErr, 0#64⟩])

/-! ## The identifier expansion -/

/-- R103: IDX is injective, and the groups of the seed can be read back from the identifier's bytes. -/
def Obligations.IdentifiersAreInjective : Prop :=
  (∀ s t : Seed, s ≠ t → idx s ≠ idx t) ∧
  ∀ (s : Seed) (j : Fin 8), s.extractLsb' (49 - 7 * j.val) 7 = (idx s).extractLsb' (57 - 8 * j.val) 7

/-- R104: the image of IDX is exactly the words with parity bits zero, and distinct seeds give different `C_0 || D_0`;
had the seed been the key, `2n` and `2n + 1` would give the same subkeys. -/
def Obligations.IdentifierImage : Prop :=
  (∀ s : Seed, idx s &&& parityMask = 0#64) ∧
  (∀ k : Word64, k &&& parityMask = 0#64 → ∃ s : Seed, idx s = k ∧ ∀ t : Seed, idx t = k → t = s) ∧
  (∀ s t : Seed, s ≠ t → select pc1 (idx s) ≠ select pc1 (idx t)) ∧
  ∀ n : Nat, ks (BitVec.ofNat 64 (2 * n)) = ks (BitVec.ofNat 64 (2 * n + 1))

/-- R105: IDX preserves the Hamming distance; seeds 0 and 1 are at distance 1. -/
def Obligations.IdentifiersPreserveHammingDistance : Prop :=
  (∀ s t : Seed, popcount (idx s ^^^ idx t) = popcount (s ^^^ t)) ∧ popcount (idx 0#56 ^^^ idx 1#56) = 1

/-- R197: identifiers made by IDGEN from distinct seeds give distinct subkeys; two keys have the same subkeys exactly when
they agree on the 56 positions that are not parity positions. -/
def Obligations.SubkeysTellEffectiveKeysApart : Prop :=
  (∀ s t : Seed, s ≠ t → ks (idx s) ≠ ks (idx t)) ∧
  ∀ a b : Word64, ks a = ks b ↔ a &&& ~~~parityMask = b &&& ~~~parityMask

/-! ## The key schedule -/

/-- R112: the rotations accumulate: `K_r` is selected from `C_0` and `D_0` rotated by the total so far; after round 16 the
halves are back at their start; and the halves never mix. -/
def Obligations.RawSubkeysOfAccumulatedRotations : Prop :=
  (∀ k : Word64, rawKeys k =
    [1, 2, 4, 6, 8, 10, 12, 14, 15, 17, 19, 21, 23, 25, 27, 28].map fun n =>
      select pc2 (rotl (keyHalfC k) n ++ rotl (keyHalfD k) n)) ∧
  (∀ v : KeyHalf, rotl v 28 = v) ∧
  ∀ c d c' d' : KeyHalf,
    (select pc2 (c ++ d)).extractLsb' 24 24 = (select pc2 (c ++ d')).extractLsb' 24 24 ∧
    (select pc2 (c ++ d)).extractLsb' 0 24 = (select pc2 (c' ++ d)).extractLsb' 0 24

/-- R113: the fields of the two words of a raw subkey, and their padding. -/
def Obligations.PackedWordLayout : Prop :=
  ∀ K : RawSubkey,
    (packEven K).extractLsb' 24 6 = chunk K 0 ∧ (packOdd K).extractLsb' 24 6 = chunk K 1 ∧
    (packEven K).extractLsb' 16 6 = chunk K 2 ∧ (packOdd K).extractLsb' 16 6 = chunk K 3 ∧
    (packEven K).extractLsb' 8 6 = chunk K 4 ∧ (packOdd K).extractLsb' 8 6 = chunk K 5 ∧
    (packEven K).extractLsb' 0 6 = chunk K 6 ∧ (packOdd K).extractLsb' 0 6 = chunk K 7 ∧
    packEven K &&& padMask = 0#32 ∧ packOdd K &&& padMask = 0#32

/-- R114: UNPACK undoes PACK, ignores the padding bits, and reads from `KS(k)` exactly the raw subkeys of `k`. -/
def Obligations.UnpackUndoesPack : Prop :=
  (∀ K : RawSubkey, unpack (packEven K) (packOdd K) = K) ∧
  (∀ a b a' b' : Word32, a &&& ~~~padMask = a' &&& ~~~padMask → b &&& ~~~padMask = b' &&& ~~~padMask →
    unpack a b = unpack a' b') ∧
  ∀ k : Word64, roundKeys (ks k) = rawKeys k

/-- R116: the eight parity positions do not influence the subkeys; every other position changes `C_0 || D_0`. -/
def Obligations.ParityPositionsIgnored : Prop :=
  (∀ k m : Word64, m &&& ~~~parityMask = 0#64 → ks (k ^^^ m) = ks k) ∧
  ks 0x0101010101010101#64 = Vector.replicate 32 0#32 ∧
  ∀ k k' : Word64, (k ^^^ k') &&& ~~~parityMask ≠ 0#64 → select pc1 k ≠ select pc1 k'

/-- R118: every bit of every raw subkey is one bit of the key, at a position that is no parity position; each round uses 48
different bits of the 56, and not every round the same. -/
def Obligations.SubkeyBitsAreKeyBits : Prop :=
  ∃ source : Fin 16 → Fin 48 → Fin 64,
    (∀ r i, (source r i).val % 8 ≠ 0) ∧ (∀ r, Function.Injective (source r)) ∧
    (∃ r r', Set.range (source r) ≠ Set.range (source r')) ∧
    ∀ (k : Word64) (r : Fin 16) (i : Fin 48), (roundKey (ks k) r).getLsbD i = k.getLsbD (source r i)

/-- R118: KS is linear over exclusive-or, word by word, and complementing the key complements every chunk. -/
def Obligations.KeyScheduleIsLinear : Prop :=
  (∀ (a b : Word64) (i : Fin 32), (ks (a ^^^ b))[i] = (ks a)[i] ^^^ (ks b)[i]) ∧
  ∀ (k : Word64) (i : Fin 32), (ks (~~~k))[i] = (ks k)[i] ^^^ 0x3F3F3F3F#32

/-! ## The cipher core -/

/-- R136: for fixed subkeys, whatever they are, ENC is a bijection of the 64-bit values. -/
def Obligations.EncIsABijection : Prop := ∀ sk : SubkeyWords, Function.Bijective (enc sk)

/-- R157: within one context, distinct counters give distinct words. -/
def Obligations.DistinctCountersGiveDistinctWords : Prop :=
  ∀ (s : State) (c c' : Word64), s.cv = true → c ≠ c' →
    ∃ w w' : Word64, answerOf (exec (.prn c) s) = some ⟨.ok, w⟩ ∧ answerOf (exec (.prn c') s) = some ⟨.ok, w'⟩ ∧
      w ≠ w'

/-- R138: the complementation law, and its two examples. -/
def Obligations.Complementation : Prop :=
  (∀ k b : Word64, enc (ks (~~~k)) (~~~b) = ~~~enc (ks k) b) ∧
  enc (ks 0#64) 0#64 = 0x8CA64DE9C1B123A7#64 ∧
  enc (ks 0xFFFFFFFFFFFFFFFF#64) 0xFFFFFFFFFFFFFFFF#64 = 0x7359B2163E4EDC58#64

/-- R159: the streams of a seed and of the complemented seed are related exactly: complemented words at complemented counters. -/
def Obligations.ComplementedSeedsGiveComplementedStreams : Prop :=
  (∀ s : Seed, ks (~~~(idx s)) = ks (idx (~~~s))) ∧
  ∀ (s : Seed) (c : Word64), enc (ks (idx (~~~s))) (~~~c) = ~~~enc (ks (idx s)) c

/-- R135: ENC reads the subkey words through their chunk fields only. -/
def Obligations.EncIgnoresSubkeyPadding : Prop :=
  ∀ (sk sk' : SubkeyWords) (b : Word64), (∀ i : Fin 32, sk[i] &&& ~~~padMask = sk'[i] &&& ~~~padMask) →
    enc sk b = enc sk' b

/-- R92: for any eight indices, the OR of the eight partial values is P applied to the concatenation of the box outputs. -/
def Obligations.PartialValuesCombineToPermutedBoxes : Prop :=
  ∀ x1 x2 x3 x4 x5 x6 x7 x8 : Chunk,
    spBox 0 x1 ||| spBox 1 x2 ||| spBox 2 x3 ||| spBox 3 x4 ||| spBox 4 x5 ||| spBox 5 x6 ||| spBox 6 x7 |||
        spBox 7 x8 =
      select roundPerm (sBox 0 x1 ++ sBox 1 x2 ++ sBox 2 x3 ++ sBox 3 x4 ++ sBox 4 x5 ++ sBox 5 x6 ++ sBox 6 x7 ++
        sBox 7 x8)

/-- R93: the 512 listed values are those of the definition. -/
def Obligations.SpListingMatchesDefinition : Prop :=
  ∀ (i : Fin 8) (x : Fin 64), spBox i (BitVec.ofFin x) = spListings[i][x]

/-- R94: each mask is the OR of its box's 64 entries and has four bits; the masks are disjoint and cover the word. -/
def Obligations.SpMasksAreDisjointFields : Prop :=
  (∀ i : Fin 8, (List.finRange 64).foldl (fun m x => m ||| spBox i (BitVec.ofFin x)) 0#32 = spMasks[i]) ∧
  (∀ i : Fin 8, popcount spMasks[i] = 4) ∧
  (∀ i j : Fin 8, i ≠ j → spMasks[i] &&& spMasks[j] = 0#32) ∧
  spMasks.toList.foldl (fun m x => m ||| x) 0#32 = 0xFFFFFFFF#32

/-- R133: the expansion written out: chunk `i` is a window of six bits of `R[0] || R || R[31]`. -/
def Obligations.ExpansionIsOverlappingWindows : Prop :=
  ∀ (R : Word32) (i : Fin 8),
    chunk (select expansion R) i =
      (R.extractLsb' 0 1 ++ R ++ R.extractLsb' 31 1).extractLsb' (28 - 4 * i.val) 6

/-- R79: FP is the inverse of IP, on values and entry by entry. -/
def Obligations.FinalPermutationInvertsInitial : Prop :=
  (∀ v : Word64, select fp (select ip v) = v) ∧ (∀ v : Word64, select ip (select fp v) = v) ∧
  ∀ j : Fin 64, fp[ip[j] - 1]? = some (j.val + 1)

/-- R75, R76, R77, R80, R81, R82: the shape of the tables: which positions PC1 and PC2 omit, what ROT sums to, which positions
E repeats, that P is a bijection and that each row of each box is a permutation of 0 to 15. -/
def Obligations.TablesHaveTheStatedShape : Prop :=
  (∀ p : Fin 64, p.val + 1 ∈ pc1.toList ↔ (p.val + 1) % 8 ≠ 0) ∧
  (∀ p : Fin 56, p.val + 1 ∈ pc2.toList ↔ p.val + 1 ∉ [9, 18, 22, 25, 35, 38, 43, 54]) ∧
  rot.sum = 28 ∧
  (∀ p : Fin 32, expansion.toList.count (p.val + 1) =
    if p.val + 1 ∈ [1, 4, 5, 8, 9, 12, 13, 16, 17, 20, 21, 24, 25, 28, 29, 32] then 2 else 1) ∧
  (∀ p : Fin 32, roundPerm.toList.count (p.val + 1) = 1) ∧
  ∀ (i : Fin 8) (r : Fin 4) (v : Fin 16), sBoxes[i][r].toList.count v.val = 1

/-! ## The conversion to binary64 -/

/-- R153: U64toF64 rounds `x / 2^64` toward zero: its value is the largest of the non-negative finite binary64 numbers that are
not above the quotient; it is `(2^52 + frac) * 2^(p - 116)`, and exact when `p <= 52` or the dropped bits are zero. (That the words compared with include
the subnormal ones, with IEEE 754's values, is the model's reading: log entry 14.) -/
def Obligations.ConversionRoundsTowardZero : Prop :=
  ∀ x : Word64,
    f64NonNegFinite (u64ToF64 x) = true ∧
    f64Value (u64ToF64 x) ≤ (x.toNat : ℚ) / 2 ^ 64 ∧
    (∀ y : Word64, f64NonNegFinite y = true → f64Value y ≤ (x.toNat : ℚ) / 2 ^ 64 →
      f64Value y ≤ f64Value (u64ToF64 x)) ∧
    (x ≠ 0#64 → f64Exponent (u64ToF64 x) = 959 + x.toNat.log2 ∧
      f64Value (u64ToF64 x) =
        ((2 ^ 52 + f64Fraction (u64ToF64 x) : ℕ) : ℚ) * 2 ^ ((x.toNat.log2 : ℤ) - 116)) ∧
    (f64Value (u64ToF64 x) = (x.toNat : ℚ) / 2 ^ 64 ↔
      x.toNat.log2 ≤ 52 ∨ x.toNat % 2 ^ (x.toNat.log2 - 52) = 0)

/-- R154: the bounds of the results: at most `1 - 2^-53`, so never 1; never negative, subnormal, infinite or NaN; monotone; and
for `x >= 2^63` the low 11 bits do not matter. -/
def Obligations.ConversionBounds : Prop :=
  (∀ x : Word64, 0 ≤ f64Value (u64ToF64 x) ∧ f64Value (u64ToF64 x) ≤ 1 - 1 / 2 ^ 53) ∧
  (∀ x : Word64, (u64ToF64 x).getLsbD 63 = false ∧
    (u64ToF64 x = 0#64 ∨ 959 ≤ f64Exponent (u64ToF64 x) ∧ f64Exponent (u64ToF64 x) ≤ 1022)) ∧
  (∀ x y : Word64, x.toNat ≤ y.toNat → f64Value (u64ToF64 x) ≤ f64Value (u64ToF64 y)) ∧
  ∀ x y : Word64, 2 ^ 63 ≤ x.toNat → x.extractLsb' 11 53 = y.extractLsb' 11 53 → u64ToF64 x = u64ToF64 y
end

