-- ==== Sys2Proof/Laws/Bits.lean ====
section
/-! SUPPORT. What `select` and `rotl` do, bit by bit: the lemmas that later proofs cite instead of unfolding them. -/

namespace Sys2Proof.Machine

/-- The bits of the number `select` builds: the listed positions, the last one lowest, above them the bits of the start. -/
theorem foldl_bits_testBit {w : Nat} (v : BitVec w) (L : List Nat) (acc i : Nat) :
    (L.foldl (fun acc p => 2 * acc + (v.getLsbD (w - p)).toNat) acc).testBit i =
      if h : i < L.length then v.getLsbD (w - L[L.length - 1 - i]) else acc.testBit (i - L.length) := by
  induction L generalizing acc with
  | nil => simp
  | cons p L ih =>
    rw [List.foldl_cons, ih]
    rcases Nat.lt_trichotomy i L.length with h | h | h
    · have h' : i < (p :: L).length := by simp; omega
      have e : (p :: L).length - 1 - i = (L.length - 1 - i) + 1 := by simp; omega
      simp only [dif_pos h, dif_pos h', e, List.getElem_cons_succ]
    · subst h
      have e : (p :: L)[(p :: L).length - 1 - L.length] = p := by simp
      rw [dif_neg (lt_irrefl _), dif_pos (by simp), e, Nat.sub_self, Nat.testBit_zero]
      cases v.getLsbD (w - p)
      · simp
      · simp
    · have h1 : ¬ i < L.length := by omega
      have h2 : ¬ i < (p :: L).length := by simp; omega
      have e : i - L.length = (i - (p :: L).length) + 1 := by simp; omega
      rw [dif_neg h1, dif_neg h2, e, Nat.testBit_succ]
      congr 1
      cases v.getLsbD (w - p)
      · simp
      · simp; omega

/-- R71 in bit indices: bit `i` of `select(T, v, w)` is the bit of `v` at position `T[n - i]`. -/
theorem select_getLsbD {n w : Nat} (T : Vector Nat n) (v : BitVec w) {i : Nat} (hi : i < n) :
    (select T v).getLsbD i = v.getLsbD (w - T[n - 1 - i]) := by
  have h : i < T.toList.length := by simpa using hi
  simp only [select, BitVec.getLsbD_ofNat, foldl_bits_testBit, dif_pos h, hi, decide_true, Bool.true_and]
  congr 2
  simp [Vector.getElem_toList]

/-- `select` copies bits, so it commutes with exclusive-or. -/
theorem select_xor {n w : Nat} (T : Vector Nat n) (a b : BitVec w) :
    select T (a ^^^ b) = select T a ^^^ select T b := by
  apply BitVec.eq_of_getLsbD_eq
  intro i hi
  simp [select_getLsbD T _ hi]

/-- `select` copies bits, so it commutes with complement when every position lies in the word. -/
theorem select_not {n w : Nat} (T : Vector Nat n) (v : BitVec w)
    (hT : ∀ j : Nat, (h : j < n) → 1 ≤ T[j] ∧ T[j] ≤ w) : select T (~~~v) = ~~~select T v := by
  apply BitVec.eq_of_getLsbD_eq
  intro i hi
  have := hT (n - 1 - i) (by omega)
  have hlt : w - T[n - 1 - i] < w := by omega
  rw [BitVec.getLsbD_not, select_getLsbD T _ hi, select_getLsbD T _ hi, BitVec.getLsbD_not]
  simp only [hi, hlt, decide_true, Bool.true_and]

/-- `select` of the zero word is zero. -/
@[simp] theorem select_zero {n w : Nat} (T : Vector Nat n) : select T (0#w) = 0#n := by
  apply BitVec.eq_of_getLsbD_eq
  intro i hi
  simp [select_getLsbD T _ hi]

/-- `rotl` moves bits without combining them (R6). -/
theorem rotl_getLsbD {w n : Nat} (v : BitVec w) (hn : n < w) {i : Nat} (hi : i < w) :
    (rotl v n).getLsbD i = v.getLsbD (if i < n then i + w - n else i - n) := by
  rw [rotl, BitVec.getLsbD_or, BitVec.getLsbD_shiftLeft, BitVec.getLsbD_ushiftRight]
  by_cases h : i < n
  · simp [h, hi, show w - n + i = i + w - n by omega]
  · have : v.getLsbD (w - n + i) = false := BitVec.getLsbD_of_ge _ _ (by omega)
    simp [h, hi, this]

/-- The bits of a chunk. -/
theorem chunk_getLsbD (x : BitVec 48) (i : Fin 8) {j : Nat} (hj : j < 6) :
    (chunk x i).getLsbD j = x.getLsbD (42 - 6 * i.val + j) := by
  simp [chunk, hj]

end Sys2Proof.Machine
end

