-- ==== Sys2Proof/Laws/State.lean ====
section
/-! SUPPORT. One lemma per field per update of the state, true by unfolding, so that no later proof unfolds a record update. -/

namespace Sys2Proof.Machine

section
variable (s : State)

@[simp] theorem State.setContextValid_cv : s.setContextValid.cv = true := rfl
@[simp] theorem State.setContextValid_id : s.setContextValid.id = s.id := rfl
@[simp] theorem State.setContextValid_sk : s.setContextValid.sk = s.sk := rfl
@[simp] theorem State.setContextValid_slot : s.setContextValid.slot = s.slot := rfl
@[simp] theorem State.setContextValid_pins : s.setContextValid.pins = s.pins := rfl
@[simp] theorem State.setContextValid_lat : s.setContextValid.lat = s.lat := rfl
@[simp] theorem State.setContextValid_edge : s.setContextValid.edge = s.edge := rfl
@[simp] theorem State.setContextValid_taken : s.setContextValid.taken = s.taken := rfl

@[simp] theorem State.clearContextValid_cv : s.clearContextValid.cv = false := rfl
@[simp] theorem State.clearContextValid_id : s.clearContextValid.id = s.id := rfl
@[simp] theorem State.clearContextValid_sk : s.clearContextValid.sk = s.sk := rfl
@[simp] theorem State.clearContextValid_slot : s.clearContextValid.slot = s.slot := rfl
@[simp] theorem State.clearContextValid_pins : s.clearContextValid.pins = s.pins := rfl
@[simp] theorem State.clearContextValid_lat : s.clearContextValid.lat = s.lat := rfl
@[simp] theorem State.clearContextValid_edge : s.clearContextValid.edge = s.edge := rfl
@[simp] theorem State.clearContextValid_taken : s.clearContextValid.taken = s.taken := rfl

@[simp] theorem State.respond_cv (wait : Nat) (r : Response) : (s.respond wait r).cv = s.cv := rfl
@[simp] theorem State.respond_id (wait : Nat) (r : Response) : (s.respond wait r).id = s.id := rfl
@[simp] theorem State.respond_sk (wait : Nat) (r : Response) : (s.respond wait r).sk = s.sk := rfl
@[simp] theorem State.respond_slot (wait : Nat) (r : Response) : (s.respond wait r).slot = .holding wait r := rfl
@[simp] theorem State.respond_pins (wait : Nat) (r : Response) : (s.respond wait r).pins = s.pins := rfl
@[simp] theorem State.respond_lat (wait : Nat) (r : Response) : (s.respond wait r).lat = s.lat := rfl
@[simp] theorem State.respond_edge (wait : Nat) (r : Response) : (s.respond wait r).edge = s.edge := rfl
@[simp] theorem State.respond_taken (wait : Nat) (r : Response) : (s.respond wait r).taken = s.taken := rfl

@[simp] theorem State.respondOk_cv (wait : Nat) (data : Word64) : (s.respondOk wait data).cv = s.cv := rfl
@[simp] theorem State.respondOk_id (wait : Nat) (data : Word64) : (s.respondOk wait data).id = s.id := rfl
@[simp] theorem State.respondOk_sk (wait : Nat) (data : Word64) : (s.respondOk wait data).sk = s.sk := rfl
@[simp] theorem State.respondOk_slot (wait : Nat) (data : Word64) : (s.respondOk wait data).slot = .holding wait ⟨.ok, data⟩ := rfl
@[simp] theorem State.respondOk_pins (wait : Nat) (data : Word64) : (s.respondOk wait data).pins = s.pins := rfl
@[simp] theorem State.respondOk_lat (wait : Nat) (data : Word64) : (s.respondOk wait data).lat = s.lat := rfl
@[simp] theorem State.respondOk_edge (wait : Nat) (data : Word64) : (s.respondOk wait data).edge = s.edge := rfl
@[simp] theorem State.respondOk_taken (wait : Nat) (data : Word64) : (s.respondOk wait data).taken = s.taken := rfl

@[simp] theorem State.raiseError_cv (wait : Nat) (status : Status) : (s.raiseError wait status).cv = s.cv := rfl
@[simp] theorem State.raiseError_id (wait : Nat) (status : Status) : (s.raiseError wait status).id = s.id := rfl
@[simp] theorem State.raiseError_sk (wait : Nat) (status : Status) : (s.raiseError wait status).sk = s.sk := rfl
@[simp] theorem State.raiseError_slot (wait : Nat) (status : Status) : (s.raiseError wait status).slot = .holding wait ⟨status, 0#64⟩ := rfl
@[simp] theorem State.raiseError_pins (wait : Nat) (status : Status) : (s.raiseError wait status).pins = s.pins := rfl
@[simp] theorem State.raiseError_lat (wait : Nat) (status : Status) : (s.raiseError wait status).lat = s.lat := rfl
@[simp] theorem State.raiseError_edge (wait : Nat) (status : Status) : (s.raiseError wait status).edge = s.edge := rfl
@[simp] theorem State.raiseError_taken (wait : Nat) (status : Status) : (s.raiseError wait status).taken = s.taken := rfl

@[simp] theorem State.loadContext_cv (identifier : Word64) (words : SubkeyWords) : (s.loadContext identifier words).cv = s.cv := rfl
@[simp] theorem State.loadContext_id (identifier : Word64) (words : SubkeyWords) : (s.loadContext identifier words).id = identifier := rfl
@[simp] theorem State.loadContext_sk (identifier : Word64) (words : SubkeyWords) : (s.loadContext identifier words).sk = words := rfl
@[simp] theorem State.loadContext_slot (identifier : Word64) (words : SubkeyWords) : (s.loadContext identifier words).slot = s.slot := rfl
@[simp] theorem State.loadContext_pins (identifier : Word64) (words : SubkeyWords) : (s.loadContext identifier words).pins = s.pins := rfl
@[simp] theorem State.loadContext_lat (identifier : Word64) (words : SubkeyWords) : (s.loadContext identifier words).lat = s.lat := rfl
@[simp] theorem State.loadContext_edge (identifier : Word64) (words : SubkeyWords) : (s.loadContext identifier words).edge = s.edge := rfl
@[simp] theorem State.loadContext_taken (identifier : Word64) (words : SubkeyWords) : (s.loadContext identifier words).taken = s.taken := rfl

@[simp] theorem State.tick_cv : s.tick.cv = s.cv := rfl
@[simp] theorem State.tick_id : s.tick.id = s.id := rfl
@[simp] theorem State.tick_sk : s.tick.sk = s.sk := rfl
@[simp] theorem State.tick_slot : s.tick.slot = s.slot := rfl
@[simp] theorem State.tick_pins : s.tick.pins = s.pins.tail := rfl
@[simp] theorem State.tick_lat : s.tick.lat = s.lat := rfl
@[simp] theorem State.tick_edge : s.tick.edge = s.edge + 1 := rfl
@[simp] theorem State.tick_taken : s.tick.taken = s.taken := rfl

@[simp] theorem State.resetEdge_cv : s.resetEdge.cv = false := rfl
@[simp] theorem State.resetEdge_id : s.resetEdge.id = Config.idAfterReset s.edge s.id := rfl
@[simp] theorem State.resetEdge_sk : s.resetEdge.sk = Config.skAfterReset s.edge s.sk := rfl
@[simp] theorem State.resetEdge_slot : s.resetEdge.slot = .empty := rfl
@[simp] theorem State.resetEdge_pins : s.resetEdge.pins = s.pins := rfl
@[simp] theorem State.resetEdge_lat : s.resetEdge.lat = s.lat := rfl
@[simp] theorem State.resetEdge_edge : s.resetEdge.edge = s.edge := rfl
@[simp] theorem State.resetEdge_taken : s.resetEdge.taken = s.taken := rfl

@[simp] theorem State.withArch_cv (a : Arch) : (s.withArch a).cv = a.cv := rfl
@[simp] theorem State.withArch_id (a : Arch) : (s.withArch a).id = a.id := rfl
@[simp] theorem State.withArch_sk (a : Arch) : (s.withArch a).sk = a.sk := rfl
@[simp] theorem State.withArch_slot (a : Arch) : (s.withArch a).slot = s.slot := rfl
@[simp] theorem State.withArch_pins (a : Arch) : (s.withArch a).pins = s.pins := rfl
@[simp] theorem State.withArch_lat (a : Arch) : (s.withArch a).lat = s.lat := rfl
@[simp] theorem State.withArch_edge (a : Arch) : (s.withArch a).edge = s.edge := rfl
@[simp] theorem State.withArch_taken (a : Arch) : (s.withArch a).taken = s.taken := rfl

@[simp] theorem State.driving_cv (ps : List Pins) : (s.driving ps).cv = s.cv := rfl
@[simp] theorem State.driving_id (ps : List Pins) : (s.driving ps).id = s.id := rfl
@[simp] theorem State.driving_sk (ps : List Pins) : (s.driving ps).sk = s.sk := rfl
@[simp] theorem State.driving_slot (ps : List Pins) : (s.driving ps).slot = s.slot := rfl
@[simp] theorem State.driving_pins (ps : List Pins) : (s.driving ps).pins = ps ++ s.pins := rfl
@[simp] theorem State.driving_lat (ps : List Pins) : (s.driving ps).lat = s.lat := rfl
@[simp] theorem State.driving_edge (ps : List Pins) : (s.driving ps).edge = s.edge := rfl
@[simp] theorem State.driving_taken (ps : List Pins) : (s.driving ps).taken = s.taken := rfl

@[simp] theorem State.advance_cv : s.advance.cv = s.cv := by unfold State.advance; split <;> rfl
@[simp] theorem State.advance_id : s.advance.id = s.id := by unfold State.advance; split <;> rfl
@[simp] theorem State.advance_sk : s.advance.sk = s.sk := by unfold State.advance; split <;> rfl
@[simp] theorem State.advance_pins : s.advance.pins = s.pins := by unfold State.advance; split <;> rfl
@[simp] theorem State.advance_lat : s.advance.lat = s.lat := by unfold State.advance; split <;> rfl
@[simp] theorem State.advance_edge : s.advance.edge = s.edge := by unfold State.advance; split <;> rfl
@[simp] theorem State.advance_taken : s.advance.taken = s.taken := by unfold State.advance; split <;> rfl

@[simp] theorem State.takeResponse_cv : s.takeResponse.cv = s.cv := by unfold State.takeResponse; split <;> rfl
@[simp] theorem State.takeResponse_id : s.takeResponse.id = s.id := by unfold State.takeResponse; split <;> rfl
@[simp] theorem State.takeResponse_sk : s.takeResponse.sk = s.sk := by unfold State.takeResponse; split <;> rfl
@[simp] theorem State.takeResponse_pins : s.takeResponse.pins = s.pins := by unfold State.takeResponse; split <;> rfl
@[simp] theorem State.takeResponse_lat : s.takeResponse.lat = s.lat := by unfold State.takeResponse; split <;> rfl
@[simp] theorem State.takeResponse_edge : s.takeResponse.edge = s.edge := by unfold State.takeResponse; split <;> rfl

@[simp] theorem State.contextValid_eq : s.contextValid = s.cv := rfl

@[simp] theorem State.arch_cv : s.arch.cv = s.cv := rfl
@[simp] theorem State.arch_id : s.arch.id = s.id := rfl
@[simp] theorem State.arch_sk : s.arch.sk = s.sk := rfl
@[simp] theorem State.arch_tick : s.tick.arch = s.arch := rfl
@[simp] theorem State.arch_respond (wait : Nat) (r : Response) : (s.respond wait r).arch = s.arch := rfl
@[simp] theorem State.arch_driving (ps : List Pins) : (s.driving ps).arch = s.arch := rfl
@[simp] theorem State.withArch_arch : s.withArch s.arch = s := rfl
@[simp] theorem State.arch_withArch (a : Arch) : (s.withArch a).arch = a := rfl
@[simp] theorem State.withArch_withArch (a b : Arch) : (s.withArch a).withArch b = s.withArch b := rfl

end

/-- What `advance` does to a command in flight: one cycle less to wait. -/
theorem State.advance_holding {s : State} {n : Nat} {r : Response} (h : s.slot = .holding (n + 1) r) :
    s.advance = { s with slot := .holding n r } := by
  simp [State.advance, h]

/-- What taking a response does: the slot is empty again and the host has the response. -/
theorem State.takeResponse_holding {s : State} {n : Nat} {r : Response} (h : s.slot = .holding n r) :
    s.takeResponse = { s with slot := .empty, taken := s.taken ++ [r] } := by
  simp [State.takeResponse, h]

end Sys2Proof.Machine
end

