-- ==== Sys2Proof/Laws/Commands.lean ====
section
/-! SUPPORT. What each command can do, said once: the next state of each meaning, and the one shape they share. -/

namespace Sys2Proof.Machine

theorem execIdgen_eq (seed : Word64) (s : State) :
    execIdgen seed s = .next (s.respond s.lat.idgen
      (if seed.toNat < 2 ^ 56 then ⟨.ok, idx (seed.extractLsb' 0 56)⟩ else ⟨.rangeErr, 0#64⟩)) := by
  by_cases h : seed.toNat < 2 ^ 56
  · simp only [execIdgen, seedInRange, h, decide_true, if_true]; rfl
  · simp only [execIdgen, seedInRange, h, decide_false, Bool.false_eq_true, if_false]; rfl

theorem execInit_eq (identifier : Word64) (s : State) :
    execInit identifier s =
      .next ((s.withArch ⟨true, identifier, ks identifier⟩).respond s.lat.init ⟨.ok, 0#64⟩) := rfl

theorem execPrn_eq (counter : Word64) (s : State) :
    execPrn counter s = .next (s.respond s.lat.prn
      (if s.cv then ⟨.ok, enc s.sk counter⟩ else ⟨.noContext, 0#64⟩)) := by
  cases h : s.cv <;> simp [execPrn, h, State.raiseError, State.respondOk, counterOf]

theorem execUnif_eq (counter : Word64) (s : State) :
    execUnif counter s = .next (s.respond s.lat.unif
      (if s.cv then ⟨.ok, u64ToF64 (enc s.sk counter)⟩ else ⟨.noContext, 0#64⟩)) := by
  cases h : s.cv <;> simp [execUnif, h, State.raiseError, State.respondOk, counterOf]

/-- Every command takes a next state: the architectural part and the response are those of the transition of R55, the response
becomes valid after the command's own latency, and nothing else changes. -/
theorem exec_eq (i : Instr) (s : State) :
    exec i s = .next ((s.withArch (transition s.arch i).1).respond (latencyWait s.lat i) (transition s.arch i).2) := by
  cases i with
  | idgen a =>
    rw [exec, execIdgen_eq]
    by_cases h : a.toNat < 2 ^ 56 <;> simp only [transition, latencyWait, h, if_true, if_false] <;> rfl
  | init a => rfl
  | prn a =>
    rw [exec, execPrn_eq]
    cases h : s.cv <;> simp only [transition, latencyWait, State.arch_cv, h] <;> rfl
  | unif a =>
    rw [exec, execUnif_eq]
    cases h : s.cv <;> simp only [transition, latencyWait, State.arch_cv, h] <;> rfl

end Sys2Proof.Machine
end

