-- ==== Sys2Proof/Laws/PerInstr.lean ====
section
/-! SUPPORT. Families of statements made for each command by itself. -/

namespace Sys2Proof.Laws

/-- The row of spec/opcode_table.json a command belongs to: the value of `op` (R52). -/
def rowOp : Instr → Nat
  | .idgen _ => 0
  | .init _ => 1
  | .prn _ => 2
  | .unif _ => 3

/-- OpcodeRow: the command's word, as a number, is its row's opcode above the 64 bits of its operand (R51, R60). -/
def OpcodeRow.Statement (i : Instr) : Prop := (encode i).toNat = rowOp i * 2 ^ 64 + (operand i).toNat

theorem toNat_append_operand (c : BitVec 2) (a : Word64) : (c ++ a).toNat = c.toNat * 2 ^ 64 + a.toNat := by
  rw [BitVec.toNat_append, ← Nat.shiftLeft_add_eq_or_of_lt a.isLt, Nat.shiftLeft_eq]

theorem OpcodeRow.idgen (seed : Word64) : OpcodeRow.Statement (.idgen seed) :=
  toNat_append_operand 0b00#2 seed

theorem OpcodeRow.init (identifier : Word64) : OpcodeRow.Statement (.init identifier) :=
  toNat_append_operand 0b01#2 identifier

theorem OpcodeRow.prn (counter : Word64) : OpcodeRow.Statement (.prn counter) :=
  toNat_append_operand 0b10#2 counter

theorem OpcodeRow.unif (counter : Word64) : OpcodeRow.Statement (.unif counter) :=
  toNat_append_operand 0b11#2 counter

end Sys2Proof.Laws
end

