-- ==== Sys2Proof/Machine/Realisation.lean ====
section
/-! DEFINITION. The freedom of realisation (43_feistel_core.md R139, 40_shared_tables.md R74): what conforms to ENC, and a
second realisation of ENC, by shifts and masks on rotated halves. The machine computes with the table-driven `enc`. -/

namespace Sys2Proof.Machine

/-- R139, R74: a function realises ENC, and conforms, when its mapping is bit-identical to that of R131 for all subkey
words and blocks. By which steps it computes, and what it holds between them, does not matter. -/
def RealisesEnc (f : SubkeyWords → Word64 → Word64) : Prop := ∀ (sk : SubkeyWords) (b : Word64), f sk b = enc sk b

/-- Exchange the bits of `b` under `mask` with those `n` places higher in `a`: one step of a shift/mask permutation. -/
def exchangeBits (n : Nat) (mask a b : Word32) : Word32 × Word32 :=
  let work := ((a >>> n) ^^^ b) &&& mask
  (a ^^^ (work <<< n), b ^^^ work)

/-- IP by shifts and masks; the halves come out rotated left by one. PRESUMED (log entry 16): this sequence. -/
def initialShiftMask (b : Word64) : Halves :=
  let s1 := exchangeBits 4 0x0F0F0F0F#32 (b.extractLsb' 32 32) (b.extractLsb' 0 32)
  let s2 := exchangeBits 16 0x0000FFFF#32 s1.1 s1.2
  let s3 := exchangeBits 2 0x33333333#32 s2.2 s2.1
  let s4 := exchangeBits 8 0x00FF00FF#32 s3.1 s3.2
  let s5 := exchangeBits 0 0xAAAAAAAA#32 s4.2 (rotl s4.1 1)
  ⟨rotl s5.1 1, s5.2⟩

/-- FP by shifts and masks, of the halves that are held rotated, exchanged as after round 16 (R134). PRESUMED (log entry
16): this sequence. -/
def finalShiftMask (h : Halves) : Word64 :=
  let s1 := exchangeBits 0 0xAAAAAAAA#32 h.L (rotl h.R 31)
  let s2 := exchangeBits 8 0x00FF00FF#32 (rotl s1.1 31) s1.2
  let s3 := exchangeBits 2 0x33333333#32 s2.1 s2.2
  let s4 := exchangeBits 16 0x0000FFFF#32 s3.2 s3.1
  let s5 := exchangeBits 4 0x0F0F0F0F#32 s4.1 s4.2
  s5.1 ++ s5.2

/-- The eight lookups of a round from two words that hold the indices in the fields of PACK (R113); the partial values are
rotated as the halves are. -/
def substituteRotated (even odd : Word32) : Word32 :=
  rotl (spBox 0 (even.extractLsb' 24 6)) 1 ||| rotl (spBox 1 (odd.extractLsb' 24 6)) 1 |||
    rotl (spBox 2 (even.extractLsb' 16 6)) 1 ||| rotl (spBox 3 (odd.extractLsb' 16 6)) 1 |||
    rotl (spBox 4 (even.extractLsb' 8 6)) 1 ||| rotl (spBox 5 (odd.extractLsb' 8 6)) 1 |||
    rotl (spBox 6 (even.extractLsb' 0 6)) 1 ||| rotl (spBox 7 (odd.extractLsb' 0 6)) 1

/-- One round on rotated halves: the rotated half holds the eight chunks of its expansion as fields, so neither E nor UNPACK
is computed. -/
def roundShiftMask (sk : SubkeyWords) (h : Halves) (r : Fin 16) : Halves :=
  ⟨h.R, h.L ^^^ substituteRotated (rotl h.R 28 ^^^ sk[2 * r.val]'(by omega)) (h.R ^^^ sk[2 * r.val + 1]'(by omega))⟩

/-- ENC by shifts and masks: the other realisation R139 speaks of. -/
def encShiftMask (sk : SubkeyWords) (b : Word64) : Word64 :=
  finalShiftMask ((List.finRange 16).foldl (roundShiftMask sk) (initialShiftMask b))

end Sys2Proof.Machine
end

