-- ==== Sys2Proof/Laws/Realisation.lean ====
section
/-! SUPPORT. The realisation of ENC by shifts and masks conforms (43_feistel_core.md R139): each of its parts is the table-driven
part on halves rotated by one, and so the whole mapping is that of `enc`. -/

namespace Sys2Proof.Machine

/-- R139: a conforming realisation is the function ENC, so no command, state or response can tell it apart. -/
theorem RealisesEnc.eq_enc {f : SubkeyWords → Word64 → Word64} (h : RealisesEnc f) : f = enc :=
  funext fun sk => funext fun b => h sk b

/-- The halves as the shift/mask realisation holds them: both rotated left by one (R139). -/
def Halves.rotated (h : Halves) : Halves := ⟨rotl h.L 1, rotl h.R 1⟩

theorem exchangeBits_fst_getLsbD (n : Nat) (m a b : Word32) {i : Nat} (hi : i < 32) :
    (exchangeBits n m a b).1.getLsbD i =
      if n ≤ i then if m.getLsbD (i - n) then b.getLsbD (i - n) else a.getLsbD i else a.getLsbD i := by
  by_cases h : n ≤ i
  · have e : n + (i - n) = i := by omega
    simp only [exchangeBits, BitVec.getLsbD_xor, BitVec.getLsbD_shiftLeft, BitVec.getLsbD_and, BitVec.getLsbD_ushiftRight, hi,
      h, e, Nat.not_lt.mpr h, decide_true, decide_false, Bool.not_false, Bool.true_and, if_true]
    cases m.getLsbD (i - n) <;> cases a.getLsbD i <;> simp
  · simp [exchangeBits, h, Nat.lt_of_not_le h]

theorem exchangeBits_snd_getLsbD (n : Nat) (m a b : Word32) (i : Nat) :
    (exchangeBits n m a b).2.getLsbD i = if m.getLsbD i then a.getLsbD (n + i) else b.getLsbD i := by
  simp [exchangeBits]
  cases m.getLsbD i <;> cases a.getLsbD (n + i) <;> cases b.getLsbD i <;> rfl

/-- A 32-bit rotation, bit by bit. -/
theorem rotl32_getLsbD (v : Word32) {n i : Nat} (hn : n < 32) (hi : i < 32) :
    (rotl v n).getLsbD i = v.getLsbD (if i < n then i + 32 - n else i - n) := rotl_getLsbD v hn hi

/-- A rotation of 32-bit words commutes with exclusive-or. -/
theorem rotl_xor (a b : Word32) : rotl (a ^^^ b) 1 = rotl a 1 ^^^ rotl b 1 := by
  apply BitVec.eq_of_getLsbD_eq
  intro i hi
  simp only [rotl32_getLsbD _ (by decide : 1 < 32) hi, BitVec.getLsbD_xor]

/-- A rotation of 32-bit words commutes with OR. -/
theorem rotl_or (a b : Word32) : rotl (a ||| b) 1 = rotl a 1 ||| rotl b 1 := by
  apply BitVec.eq_of_getLsbD_eq
  intro i hi
  simp only [rotl32_getLsbD _ (by decide : 1 < 32) hi, BitVec.getLsbD_or]

/-- IP by shifts and masks leaves the halves of R131, rotated. -/
theorem initialShiftMask_eq (b : Word64) : initialShiftMask b = (initialHalves b).rotated := by
  have hL : (initialShiftMask b).L = rotl (initialHalves b).L 1 := by
    apply BitVec.eq_of_getLsbD_eq
    intro i hi
    simp only [initialShiftMask, initialHalves]
    interval_cases i <;>
      simp [-BitVec.getLsbD_eq_getElem, rotl32_getLsbD, exchangeBits_fst_getLsbD, exchangeBits_snd_getLsbD, select_getLsbD, ip]
  have hR : (initialShiftMask b).R = rotl (initialHalves b).R 1 := by
    apply BitVec.eq_of_getLsbD_eq
    intro i hi
    simp only [initialShiftMask, initialHalves]
    interval_cases i <;>
      simp [-BitVec.getLsbD_eq_getElem, rotl32_getLsbD, exchangeBits_fst_getLsbD, exchangeBits_snd_getLsbD, select_getLsbD, ip]
  rw [Halves.rotated, ← hL, ← hR]

/-- The bits of a block made of two halves. -/
theorem halves_getLsbD (a b : Word32) (i : Nat) :
    (show Word64 from a ++ b).getLsbD i = if i < 32 then b.getLsbD i else a.getLsbD (i - 32) := by
  show (a ++ b).getLsbD i = _
  rw [BitVec.getLsbD_append]

/-- FP by shifts and masks, from the rotated halves, is the end of the network (R134). -/
theorem finalShiftMask_rotated (h : Halves) : finalShiftMask h.rotated = finalBlock h := by
  apply BitVec.eq_of_getLsbD_eq
  intro i hi
  simp only [finalShiftMask, finalBlock, Halves.rotated]
  interval_cases i <;>
    simp [-BitVec.getLsbD_eq_getElem, rotl32_getLsbD, exchangeBits_fst_getLsbD, exchangeBits_snd_getLsbD, select_getLsbD, fp,
      halves_getLsbD]

/-- E, chunk by chunk, on a half that is held rotated by one, and rotated further by four for every second chunk: the chunks
are fields of words (R133, R113). -/
theorem chunk_expansion (R : Word32) :
    (chunk (select expansion R) 0 = (rotl (rotl R 1) 28).extractLsb' 24 6 ∧
      chunk (select expansion R) 2 = (rotl (rotl R 1) 28).extractLsb' 16 6 ∧
      chunk (select expansion R) 4 = (rotl (rotl R 1) 28).extractLsb' 8 6 ∧
      chunk (select expansion R) 6 = (rotl (rotl R 1) 28).extractLsb' 0 6) ∧
    chunk (select expansion R) 1 = (rotl R 1).extractLsb' 24 6 ∧
    chunk (select expansion R) 3 = (rotl R 1).extractLsb' 16 6 ∧
    chunk (select expansion R) 5 = (rotl R 1).extractLsb' 8 6 ∧
    chunk (select expansion R) 7 = (rotl R 1).extractLsb' 0 6 := by
  refine ⟨⟨?_, ?_, ?_, ?_⟩, ?_, ?_, ?_, ?_⟩ <;>
  · apply BitVec.eq_of_getLsbD_eq
    intro i hi
    interval_cases i <;>
      simp [-BitVec.getLsbD_eq_getElem, chunk_getLsbD, rotl32_getLsbD, select_getLsbD, expansion]

/-- The bits of UNPACK's result, field by field (R114). -/
theorem unpack_getLsbD (even odd : Word32) (i : Nat) :
    (unpack even odd).getLsbD i =
      if i < 6 then odd.getLsbD i else if i < 12 then even.getLsbD (i - 6)
      else if i < 18 then odd.getLsbD (8 + (i - 12)) else if i < 24 then even.getLsbD (8 + (i - 18))
      else if i < 30 then odd.getLsbD (16 + (i - 24)) else if i < 36 then even.getLsbD (16 + (i - 30))
      else if i < 42 then odd.getLsbD (24 + (i - 36))
      else decide (i - 42 < 6) && even.getLsbD (24 + (i - 42)) := by
  have e : (unpack even odd).getLsbD i = BitVec.getLsbD (w := 6 + 6 + 6 + 6 + 6 + 6 + 6 + 6)
      (even.extractLsb' 24 6 ++ odd.extractLsb' 24 6 ++ even.extractLsb' 16 6 ++ odd.extractLsb' 16 6 ++
        even.extractLsb' 8 6 ++ odd.extractLsb' 8 6 ++ even.extractLsb' 0 6 ++ odd.extractLsb' 0 6) i := rfl
  simp only [e, BitVec.getLsbD_append, BitVec.getLsbD_extractLsb', Nat.zero_add, Nat.sub_sub]
  split_ifs <;> first | rfl | omega | simp_all

/-- UNPACK, chunk by chunk (R114). -/
theorem chunk_unpack (even odd : Word32) :
    (chunk (unpack even odd) 0 = even.extractLsb' 24 6 ∧ chunk (unpack even odd) 2 = even.extractLsb' 16 6 ∧
      chunk (unpack even odd) 4 = even.extractLsb' 8 6 ∧ chunk (unpack even odd) 6 = even.extractLsb' 0 6) ∧
    chunk (unpack even odd) 1 = odd.extractLsb' 24 6 ∧ chunk (unpack even odd) 3 = odd.extractLsb' 16 6 ∧
    chunk (unpack even odd) 5 = odd.extractLsb' 8 6 ∧ chunk (unpack even odd) 7 = odd.extractLsb' 0 6 := by
  refine ⟨⟨?_, ?_, ?_, ?_⟩, ?_, ?_, ?_, ?_⟩ <;>
  · apply BitVec.eq_of_getLsbD_eq
    intro i hi
    interval_cases i <;>
      simp [-BitVec.getLsbD_eq_getElem, chunk_getLsbD, unpack_getLsbD]

/-- A chunk of an exclusive-or. -/
theorem chunk_xor (a b : BitVec 48) (i : Fin 8) : chunk (a ^^^ b) i = chunk a i ^^^ chunk b i := by
  apply BitVec.eq_of_getLsbD_eq
  intro j hj
  simp only [chunk_getLsbD _ _ hj, BitVec.getLsbD_xor]

/-- A field of an exclusive-or. -/
theorem field_xor (a b : Word32) (n : Nat) :
    (a ^^^ b).extractLsb' n 6 = a.extractLsb' n 6 ^^^ b.extractLsb' n 6 := by
  apply BitVec.eq_of_getLsbD_eq
  intro j hj
  simp only [BitVec.getLsbD_extractLsb', BitVec.getLsbD_xor, hj, decide_true, Bool.true_and]

/-- The lookups of a round from the rotated half are F, rotated (R132). -/
theorem substituteRotated_eq (R even odd : Word32) :
    substituteRotated (rotl (rotl R 1) 28 ^^^ even) (rotl R 1 ^^^ odd) = rotl (roundF R (unpack even odd)) 1 := by
  obtain ⟨⟨e0, e2, e4, e6⟩, e1, e3, e5, e7⟩ := chunk_expansion R
  obtain ⟨⟨u0, u2, u4, u6⟩, u1, u3, u5, u7⟩ := chunk_unpack even odd
  simp only [substituteRotated, roundF, substitute, rotl_or, field_xor, chunk_xor, e0, e1, e2, e3, e4, e5, e6, e7, u0, u1,
    u2, u3, u4, u5, u6, u7]

/-- One round on the rotated halves is the round of R131. -/
theorem roundShiftMask_rotated (sk : SubkeyWords) (h : Halves) (r : Fin 16) :
    roundShiftMask sk h.rotated r = (feistelRound h (roundKey sk r)).rotated := by
  simp only [roundShiftMask, Halves.rotated, feistelRound, roundKey, substituteRotated_eq, rotl_xor]

/-- Any sequence of rounds on the rotated halves. -/
theorem foldl_roundShiftMask (sk : SubkeyWords) (rs : List (Fin 16)) (h : Halves) :
    rs.foldl (roundShiftMask sk) h.rotated = ((rs.map (roundKey sk)).foldl feistelRound h).rotated := by
  induction rs generalizing h with
  | nil => rfl
  | cons r rs ih => rw [List.foldl_cons, roundShiftMask_rotated, ih, List.map_cons, List.foldl_cons]

/-- R139: the realisation by shifts and masks, whose halves are held rotated, conforms: its mapping is bit-identical. -/
theorem encShiftMask_realisesEnc : RealisesEnc encShiftMask := fun sk b => by
  rw [encShiftMask, initialShiftMask_eq, foldl_roundShiftMask, finalShiftMask_rotated]
  rfl

end Sys2Proof.Machine
end

