-- ==== Sys2Proof/Laws/Step.lean ====
section
/-! SUPPORT. What one edge of `clk` can do, said once: which event each situation gives, and the inversion of `step`. -/

namespace Sys2Proof.Machine

/-- R190: `rst = 1` wins over everything. -/
theorem edgeEvent_reset {s : State} (h : s.pinsNow.rst = true) : s.edgeEvent = .reset := by
  simp [State.edgeEvent, h]

/-- R56: with no command in flight a presented command is accepted, and nothing happens otherwise. -/
theorem edgeEvent_empty {s : State} (h : s.pinsNow.rst = false) (he : s.slot = .empty) :
    s.edgeEvent = if s.pinsNow.cmdValid then .accept s.pinsNow.cmd else .hold := by
  simp [State.edgeEvent, State.cmdReady, State.rspValid, h, he]

/-- R56: while the response is not valid, the block waits, whatever the host presents. -/
theorem edgeEvent_waiting {s : State} {n : Nat} {r : Response} (h : s.pinsNow.rst = false)
    (hs : s.slot = .holding (n + 1) r) : s.edgeEvent = .wait := by
  simp [State.edgeEvent, State.cmdReady, State.rspValid, h, hs]

/-- R56: a valid response is held until the host is ready, and then taken. -/
theorem edgeEvent_valid {s : State} {r : Response} (h : s.pinsNow.rst = false) (hs : s.slot = .holding 0 r) :
    s.edgeEvent = if s.pinsNow.rspReady then .take else .hold := by
  simp [State.edgeEvent, State.cmdReady, State.rspValid, h, hs]

theorem step_of_reset {s : State} (h : s.edgeEvent = .reset) : step s = .next s.tick.resetEdge := by
  simp [step, h]

theorem step_of_accept {s : State} {w : CmdWord} (h : s.edgeEvent = .accept w) :
    step s = exec (decode w) s.tick := by
  simp [step, h, fetchCommand]

theorem step_of_wait {s : State} (h : s.edgeEvent = .wait) : step s = .next s.tick.advance := by
  simp [step, h]

theorem step_of_take {s : State} (h : s.edgeEvent = .take) : step s = .next s.tick.takeResponse := by
  simp [step, h]

theorem step_of_hold {s : State} (h : s.edgeEvent = .hold) : step s = .next s.tick := by
  simp [step, h]

/-- Everything a step can do, with the situation in which it does it. -/
theorem step_cases {s t : State} (h : step s = .next t) :
    (s.pinsNow.rst = true ∧ t = s.tick.resetEdge) ∨
    (s.pinsNow.rst = false ∧ s.slot = .empty ∧ s.pinsNow.cmdValid = true ∧
      exec (decode s.pinsNow.cmd) s.tick = .next t) ∨
    (s.pinsNow.rst = false ∧ ∃ n r, s.slot = .holding (n + 1) r ∧ t = { s.tick with slot := .holding n r }) ∨
    (s.pinsNow.rst = false ∧ s.pinsNow.rspReady = true ∧ ∃ r, s.slot = .holding 0 r ∧
      t = { s.tick with slot := .empty, taken := s.taken ++ [r] }) ∨
    (s.pinsNow.rst = false ∧ t = s.tick ∧
      ((s.slot = .empty ∧ s.pinsNow.cmdValid = false) ∨
        ((∃ r, s.slot = .holding 0 r) ∧ s.pinsNow.rspReady = false))) := by
  cases hr : s.pinsNow.rst with
  | true =>
    rw [step_of_reset (edgeEvent_reset hr)] at h
    exact .inl ⟨rfl, (Host.Outcome.next.inj h).symm⟩
  | false =>
    right
    rcases hs : s.slot with _ | ⟨_ | n, r⟩
    · cases hc : s.pinsNow.cmdValid with
      | true =>
        rw [step_of_accept (w := s.pinsNow.cmd) (by simp [edgeEvent_empty hr hs, hc])] at h
        exact .inl ⟨rfl, rfl, rfl, h⟩
      | false =>
        rw [step_of_hold (by simp [edgeEvent_empty hr hs, hc])] at h
        exact .inr (.inr (.inr ⟨rfl, (Host.Outcome.next.inj h).symm, .inl ⟨rfl, rfl⟩⟩))
    · cases hc : s.pinsNow.rspReady with
      | true =>
        rw [step_of_take (by simp [edgeEvent_valid hr hs, hc]),
          State.takeResponse_holding (s := s.tick) (by simpa using hs)] at h
        exact .inr (.inr (.inl ⟨rfl, rfl, r, rfl, (Host.Outcome.next.inj h).symm⟩))
      | false =>
        rw [step_of_hold (by simp [edgeEvent_valid hr hs, hc])] at h
        exact .inr (.inr (.inr ⟨rfl, (Host.Outcome.next.inj h).symm, .inr ⟨⟨r, rfl⟩, rfl⟩⟩))
    · rw [step_of_wait (edgeEvent_waiting hr hs), State.advance_holding (s := s.tick) (by simpa using hs)] at h
      exact .inr (.inl ⟨rfl, n, r, rfl, (Host.Outcome.next.inj h).symm⟩)

/-- No edges: the state stays. -/
@[simp] theorem runEdges_zero (s : State) : runEdges 0 s = .next s := rfl

/-- One edge, then the others. -/
theorem runEdges_succ {n : Nat} {s t : State} (h : step s = .next t) : runEdges (n + 1) s = runEdges n t := by
  show Host.Core.run Sys2Proof.core (n + 1) s = Host.Core.run Sys2Proof.core n t
  simp only [Host.Core.run]
  have : Sys2Proof.core.step s = .next t := h
  rw [this]

end Sys2Proof.Machine
end

