-- ==== Sys2Proof/Laws/Words.lean ====
section
/-! SUPPORT. The bits of command words and response words: the two code bits and the 64 bits below them. -/

namespace Sys2Proof.Machine

/-- The bits of a 2-bit code above a 64-bit field: the layout of command words (R51) and of response words (R53). -/
theorem codeWord_getLsbD (c : BitVec 2) (a : Word64) (k : Nat) :
    (c ++ a).getLsbD k = if k < 64 then a.getLsbD k else c.getLsbD (k - 64) := by
  rw [BitVec.getLsbD_append]

theorem encode_getLsbD (i : Instr) (k : Nat) :
    (encode i).getLsbD k = if k < 64 then (operand i).getLsbD k else (opcode i).getLsbD (k - 64) :=
  codeWord_getLsbD _ _ _

theorem encodeResponse_getLsbD (r : Response) (k : Nat) :
    (encodeResponse r).getLsbD k = if k < 64 then r.data.getLsbD k else (statusCode r.status).getLsbD (k - 64) :=
  codeWord_getLsbD _ _ _

/-- The operand field of an encoded command. -/
theorem cmdArg_encode (i : Instr) : cmdArg (encode i) = operand i := by
  apply BitVec.eq_of_getLsbD_eq
  intro k hk
  simp only [cmdArg, BitVec.getLsbD_extractLsb', encode_getLsbD, Nat.zero_add, hk, decide_true, Bool.true_and, if_true]

/-- The data field of an encoded response. -/
theorem data_encodeResponse (r : Response) : (encodeResponse r).extractLsb' 0 64 = r.data := by
  apply BitVec.eq_of_getLsbD_eq
  intro k hk
  simp only [BitVec.getLsbD_extractLsb', encodeResponse_getLsbD, Nat.zero_add, hk, decide_true, Bool.true_and, if_true]

/-- The opcode bits of an encoded command. -/
theorem encode_opcodeBits (i : Instr) :
    (encode i).getLsbD 65 = (opcode i).getLsbD 1 ∧ (encode i).getLsbD 64 = (opcode i).getLsbD 0 :=
  ⟨encode_getLsbD i 65, encode_getLsbD i 64⟩

/-- The status bits of an encoded response. -/
theorem encodeResponse_statusBits (r : Response) :
    (encodeResponse r).getLsbD 65 = (statusCode r.status).getLsbD 1 ∧
      (encodeResponse r).getLsbD 64 = (statusCode r.status).getLsbD 0 :=
  ⟨encodeResponse_getLsbD r 65, encodeResponse_getLsbD r 64⟩

end Sys2Proof.Machine
end

