-- ==== Sys2Proof/Tests/Slice0.lean ====
section
/-! SUPPORT. Tests on values that the spec prints (95_test_vectors.md, 30_encoding.md R60), and for every statement with
hypotheses a witness that meets them together. -/

namespace Sys2Proof.Tests

open Sys2Proof Sys2Proof.Machine

/-! ## Small states -/

/-- An idle block after reset with four different latencies, and a host that drives `ps`. -/
def idle (ps : List Pins) : State := (State.resetWith ⟨0, 1, 2, 3⟩).driving ps

/-- The same with the context of a key. -/
def withKey (k : Word64) (ps : List Pins) : State := { idle ps with cv := true, id := k, sk := ks k }

/-- The same with a response in flight. -/
def answering (wait : Nat) (r : Response) (ps : List Pins) : State := { withKey 0#64 ps with slot := .holding wait r }

/-- The host presents a command. -/
def presenting (i : Instr) : Pins := ⟨false, true, encode i, false⟩

/-- The host asserts `rst`. -/
def resetting : Pins := ⟨true, false, 0#66, true⟩

/-- The host is ready to take a response. -/
def ready : Pins := ⟨false, false, 0#66, true⟩

/-! ## Encodings: words of the programs P1 to P3, written out from R51, R52 and R60 -/

theorem test_decode_idgen : decode 0x00100000000000000#66 = .idgen 0x0100000000000000#64 := by decide

theorem test_decode_init : decode 0x1133457799BBCDFF1#66 = .init 0x133457799BBCDFF1#64 := by decide

theorem test_decode_prn : decode 0x2FFFFFFFFFFFFFFFF#66 = .prn 0xFFFFFFFFFFFFFFFF#64 := by decide

theorem test_decode_unif : decode 0x30123456789ABCDEF#66 = .unif 0x0123456789ABCDEF#64 := by decide

theorem test_encode_prn : encode (.prn 1#64) = 0x20000000000000001#66 := by decide

theorem test_responseWord : encodeResponse ⟨.noContext, 0#64⟩ = 0x20000000000000000#66 := by decide

/-! ## Well-formedness: the ill-formed is refused -/

theorem test_wellFormed_refuses_wide_number : WellFormed.commandNumber (2 ^ 66) = false := by decide

theorem test_decodeNumber_refuses_wide_number :
    decodeNumber (2 ^ 66 + 5) = .error .tooWideForCommandPort ∧ decodeTableWord 72 (2 ^ 66) = none := by
  constructor <;> rfl

theorem test_wellFormed_refuses_reserved_status : WellFormed.responseWord 0x30000000000000000#66 = false := by decide

/-! ## The commands, at most two each -/

/-- R102's example. -/
theorem test_idgen_example :
    answerOf (exec (.idgen 0x123456789ABCDE#64) State.reset) = some ⟨.ok, 0x121A14CE88D4F2BC#64⟩ := by decide +kernel

/-- 95_test_vectors.md section 4: the seed is not masked. -/
theorem test_idgen_range :
    answerOf (exec (.idgen 0x0100000000000001#64) State.reset) = some ⟨.rangeErr, 0#64⟩ := by decide +kernel

/-- R115's example and the last row of 95_test_vectors.md section 5.1. -/
theorem test_init_words : (ks 0x133457799BBCDFF1#64)[0] = 0x060B3F01#32 ∧ (ks 0x133457799BBCDFF1#64)[1] = 0x302F0732#32 ∧
    (ks 0x133457799BBCDFF1#64)[31] = 0x330B2135#32 := by decide +kernel

/-- 95_test_vectors.md section 5.5, and program P3 steps 2 and 6. -/
theorem test_init_parity : ks 0xFEFEFEFEFEFEFEFE#64 = Vector.replicate 32 0x3F3F3F3F#32 ∧ ks 2#64 = ks 3#64 := by
  decide +kernel

/-- The textbook vector, 95_test_vectors.md section 6.1. -/
theorem test_prn_textbook :
    answerOf (exec (.prn 0x0123456789ABCDEF#64) (withKey 0x133457799BBCDFF1#64 [])) =
      some ⟨.ok, 0x85E813540F0AB405#64⟩ := by decide +kernel

/-- R139: the realisation by shifts and masks gives the textbook vector too (95_test_vectors.md section 6.1). -/
theorem test_encShiftMask_textbook :
    encShiftMask (ks 0x133457799BBCDFF1#64) 0x0123456789ABCDEF#64 = 0x85E813540F0AB405#64 := by decide +kernel

/-- Program P2 step 1. -/
theorem test_prn_without_context : answerOf (exec (.prn 5#64) State.reset) = some ⟨.noContext, 0#64⟩ := by decide +kernel

/-- Program P3 step 10. -/
theorem test_unif_textbook :
    answerOf (exec (.unif 0x0123456789ABCDEF#64) (withKey 0x133457799BBCDFF1#64 [])) =
      some ⟨.ok, 0x3FE0BD026A81E156#64⟩ := by decide +kernel

/-- 95_test_vectors.md sections 8 and 10: truncation, the smallest and the largest result. -/
theorem test_unif_conversion : u64ToF64 0x0123456789ABCDEF#64 = 0x3F723456789ABCDE#64 ∧
    u64ToF64 1#64 = 0x3BF0000000000000#64 ∧ u64ToF64 0xFFFFFFFFFFFFFFFF#64 = 0x3FEFFFFFFFFFFFFF#64 := by decide

/-! ## The interface and the notation -/

/-- `withFetchWord` at reset: the next step runs the command. -/
theorem test_fetch_runs_idgen :
    answerOf (step (State.reset.withFetchWord 72 0x00000000000000001)) = some ⟨.ok, 2#64⟩ := by decide +kernel

/-- The encoding of step 4 of program P1, spelled as 95_test_vectors.md section 9 prints it (log entry 10). -/
theorem test_showEncoding : showEncoding (.prn 1#64) = '2' :: (List.replicate 15 '0' ++ ['1']) := by decide

/-- R60: a line with a comment, in the spelling of program P1. -/
theorem test_readLine : readLine ['P', 'R', 'N', ' ', '0', 'x', '1', ' ', ';', 'a'] = .ok (.command (.prn 1#64)) := by
  rfl

/-- R60: an operand of more than 16 hexadecimal digits is refused. -/
theorem test_readLine_refuses_long_operand :
    readLine (['P', 'R', 'N', ' ', '0', 'x'] ++ List.replicate 17 '0') = .error .operandTooLong := by rfl

/-! ## Witnesses: states and operands that meet the hypotheses of the statements -/

theorem witness_StepRunsTheAcceptedCommand : (idle [presenting (.prn 5#64)]).pinsNow.rst = false ∧
    (idle [presenting (.prn 5#64)]).pinsNow.cmdValid = true ∧ (idle [presenting (.prn 5#64)]).slot = .empty := by decide

theorem witness_FetchedWordIsTheNextCommand : decodeTableWord 72 (2 ^ 66 - 1) = some (.unif 0xFFFFFFFFFFFFFFFF#64) := by
  decide

theorem witness_StepKeepsLatencies : ∃ t, step (idle []) = .next t := ⟨_, rfl⟩

theorem witness_ResetEdgeClearsAndAbandons : (answering 0 ⟨.ok, 1#64⟩ [resetting]).pinsNow.rst = true := by decide

theorem witness_StateAfterReset : ([presenting (.init 1#64)].headD Pins.quiet).rst = false := by decide

theorem witness_ResponseValidAfterLatency :
    (idle [presenting (.prn 5#64)]).slot = .empty ∧ (idle [presenting (.prn 5#64)]).pinsNow.rst = false ∧
    (idle [presenting (.prn 5#64)]).pinsNow.cmdValid = true ∧
    latencyWait (idle [presenting (.prn 5#64)]).lat (decode (idle [presenting (.prn 5#64)]).pinsNow.cmd) = 2 ∧
    (idle [presenting (.prn 5#64)]).NoResetFor 3 := by decide

theorem witness_ResponseHeldWhileHostNotReady :
    (answering 0 ⟨.ok, 1#64⟩ [presenting (.prn 5#64), ready]).slot = .holding 0 ⟨.ok, 1#64⟩ ∧
    (answering 0 ⟨.ok, 1#64⟩ [presenting (.prn 5#64), ready]).NoResetFor 1 ∧
    (answering 0 ⟨.ok, 1#64⟩ [presenting (.prn 5#64), ready]).NotReadyFor 1 ∧
    (answering 0 ⟨.ok, 1#64⟩ [presenting (.prn 5#64), ready]).tick.pinsNow.rst = false := by decide +kernel

theorem witness_ReadyHostTakesTheResponse :
    (answering 0 ⟨.ok, 1#64⟩ [ready]).slot = .holding 0 ⟨.ok, 1#64⟩ ∧
    (answering 0 ⟨.ok, 1#64⟩ [ready]).pinsNow.rst = false ∧
    (answering 0 ⟨.ok, 1#64⟩ [ready]).pinsNow.rspReady = true := by decide +kernel

theorem witness_IdgenOfLegalSeedCompletes :
    (0#64).toNat < 2 ^ 56 ∧ (0x00FFFFFFFFFFFFFF#64).toNat < 2 ^ 56 ∧ ¬ (0x0100000000000000#64).toNat < 2 ^ 56 := by decide

/-- For PrnCompletes, UnifCompletesInUnitInterval and, with two counters, DistinctCountersGiveDistinctWords. -/
theorem witness_PrnAndUnifComplete :
    (withKey 0#64 []).cv = true ∧ (0#64 : Word64) ≠ 0xFFFFFFFFFFFFFFFF#64 := by decide

theorem witness_UnifIsConvertedPrn : (withKey 0#64 []).cv = true ∧
    answerOf (exec (.prn 0#64) (withKey 0#64 [])) = some ⟨.ok, 0x8CA64DE9C1B123A7#64⟩ := by decide +kernel

theorem witness_ErrorsWriteNoState :
    answerOf (exec (.idgen 0x0100000000000000#64) (idle [])) = some ⟨.rangeErr, 0#64⟩ ∧ Status.rangeErr ≠ .ok := by
  decide +kernel

theorem witness_CommandsAreIdempotent : ∃ t, exec (.init 2#64) (idle []) = .next t := ⟨_, rfl⟩

theorem witness_SecondInitReplacesTheContext : ∃ t, exec (.init 2#64) (withKey 4#64 []) = .next t := ⟨_, rfl⟩

theorem witness_StepKeepsContextInvariant :
    (withKey 2#64 [presenting (.prn 5#64)]).ContextInv ∧ (withKey 2#64 [presenting (.prn 5#64)]).cv = true ∧
    ∃ t, step (withKey 2#64 [presenting (.prn 5#64)]) = .next t := ⟨fun _ => rfl, rfl, _, rfl⟩

theorem witness_StepKeepsSubkeyPaddingZero :
    (withKey 2#64 [ready]).PadsZero ∧ ∃ t, step (withKey 2#64 [ready]) = .next t := ⟨by decide +kernel, _, rfl⟩

theorem witness_StepKeepsResponsesWellFormed :
    (answering 0 ⟨.rangeErr, 0#64⟩ [ready]).ResponsesWf ∧ ∃ t, step (answering 0 ⟨.rangeErr, 0#64⟩ [ready]) = .next t := by
  refine ⟨⟨?_, ?_⟩, _, rfl⟩
  · rintro r ⟨rfl⟩ _
    rfl
  · intro r hr
    cases hr

theorem witness_ReachableStatesHoldTheContextInvariant :
    ∃ t, runEdges 1 ((State.resetWith ⟨0, 1, 2, 3⟩).driving [presenting (.init 2#64)]) = .next t ∧ t.cv = true :=
  ⟨_, rfl, rfl⟩

theorem witness_OnlyInitAndResetChangeTheContext :
    ∃ t, step (idle [presenting (.init 2#64)]) = .next t ∧ t.arch ≠ (idle [presenting (.init 2#64)]).arch :=
  ⟨_, rfl, fun h => Bool.noConfusion (congrArg Arch.cv h)⟩

/-- Two states with CV = 0 that differ in ID and SK, and two with CV = 1 that differ in ID. -/
theorem witness_HiddenStateIsUnobservable :
    (idle [ready]).SameToTheHost { idle [ready] with id := 1#64, sk := ks 2#64 } ∧
    (withKey 0#64 [ready]).SameToTheHost { withKey 0#64 [ready] with id := 1#64 } ∧
    (∃ t, step (idle [ready]) = .next t) ∧ ∃ t, step { idle [ready] with id := 1#64, sk := ks 2#64 } = .next t :=
  ⟨⟨rfl, fun h => Bool.noConfusion h, rfl, rfl, rfl, rfl, rfl⟩, ⟨rfl, fun _ => rfl, rfl, rfl, rfl, rfl, rfl⟩, ⟨_, rfl⟩,
    ⟨_, rfl⟩⟩

/-- For RunsRefineTheTransition: two edges that accept an INIT and wait for its response. -/
theorem witness_RunsRefineTheTransition :
    (idle [presenting (.init 2#64), ready]).slot = .empty ∧ (idle [presenting (.init 2#64), ready]).NoResetFor 2 ∧
    ∃ t, runEdges 2 (idle [presenting (.init 2#64), ready]) = .next t := ⟨rfl, by decide, _, rfl⟩

/-- For TransactionIsOneTransition, PureCommandsAnswerIndependently and NumbersDependOnLastInitOnly. -/
theorem witness_IdleAndPureCommands :
    (withKey 0#64 []).slot = .empty ∧ ∀ i ∈ [Instr.idgen 1#64, .prn 2#64, .unif 3#64], isPure i = true := by decide

/-- Both clauses, at the boundary between them. -/
theorem witness_SeedOperationStartsTheStream : (idle []).slot = .empty ∧ (0x00FFFFFFFFFFFFFF#64).toNat < 2 ^ 56 ∧
    2 ^ 56 ≤ (0x0100000000000000#64).toNat := by decide

/-- For IdentifiersAreInjective, IdentifierImage and SubkeysTellEffectiveKeysApart. -/
theorem witness_IdentifierImage : (0#56 : Seed) ≠ 1#56 ∧ 0xFEFEFEFEFEFEFEFE#64 &&& parityMask = 0#64 ∧
    idx 0x7F#56 = 0xFE#64 := by decide

theorem witness_UnpackUndoesPack : (0xC0000000#32 : Word32) &&& ~~~padMask = 0#32 &&& ~~~padMask ∧
    (0x000000C1#32 : Word32) &&& ~~~padMask = 1#32 &&& ~~~padMask := by decide

theorem witness_ParityPositionsIgnored : 0x0100000000000001#64 &&& ~~~parityMask = 0#64 ∧
    (2#64 ^^^ 0#64) &&& ~~~parityMask ≠ 0#64 := by decide

theorem witness_EncIgnoresSubkeyPadding :
    ∀ i : Fin 32, (Vector.replicate 32 padMask)[i] &&& ~~~padMask = (Vector.replicate 32 0#32)[i] &&& ~~~padMask := by
  decide +kernel

theorem witness_ConversionRoundsTowardZero : f64NonNegFinite 0#64 = true ∧ (1#64 : Word64) ≠ 0#64 ∧
    f64Value 0#64 ≤ ((1#64 : Word64).toNat : ℚ) / 2 ^ 64 := by
  refine ⟨by decide, by decide, ?_⟩
  have h : f64Value 0#64 = 0 := by
    have e : f64Exponent 0#64 = 0 := by decide
    have f : f64Fraction 0#64 = 0 := by decide
    simp [f64Value, e, f]
  rw [h]
  positivity

theorem witness_ConversionBounds : 2 ^ 63 ≤ (0x8000000000000000#64).toNat ∧
    (0x8000000000000000#64).extractLsb' 11 53 = (0x80000000000007FF#64).extractLsb' 11 53 ∧
    (0x8000000000000000#64).toNat ≤ (0x80000000000007FF#64).toNat := by decide

end Sys2Proof.Tests
end

/-! ## Latencies, pins and the edge count -/

namespace Sys2Proof.Proofs

open Sys2Proof.Machine

/-- A command's frame outside the architectural state and the slot: time does not go by inside a command. -/
theorem exec_keeps_timing {i : Instr} {s t : State} (h : exec i s = .next t) :
    t.lat = s.lat ∧ t.pins = s.pins ∧ t.edge = s.edge := by
  rw [exec_eq] at h
  cases h
  simp

/-- Settles O8, by the inversion of `step`: every case changes `s.tick` in other fields only, and `tick` is where one edge
goes by. -/
theorem stepKeepsLatencies : Obligations.StepKeepsLatencies := by
  intro s t h
  obtain ⟨-, rfl⟩ | ⟨-, -, -, hexec⟩ | ⟨-, n, r, -, rfl⟩ | ⟨-, -, r, -, rfl⟩ | ⟨-, rfl, -⟩ := step_cases h
  case inr.inl =>
    obtain ⟨hlat, hpins, hedge⟩ := exec_keeps_timing hexec
    exact ⟨by rw [hlat, State.tick_lat], by rw [hpins, State.tick_pins], by rw [hedge, State.tick_edge]⟩
  all_goals simp

end Sys2Proof.Proofs

/-! ## The decoder's fields, and the command word of a decoded command (R51, R52) -/

namespace Sys2Proof.Machine

theorem operand_decode (w : CmdWord) : operand (decode w) = cmdArg w := by
  unfold decode
  split <;> rfl

theorem opcode_decode (w : CmdWord) :
    (opcode (decode w)).getLsbD 1 = w.getLsbD 65 ∧ (opcode (decode w)).getLsbD 0 = w.getLsbD 64 := by
  unfold decode
  split <;> simp_all [opcode]

/-- No two words stand for one command: the fields are the whole word. -/
theorem encode_decode (w : CmdWord) : encode (decode w) = w := by
  obtain ⟨h1, h0⟩ := opcode_decode w
  apply BitVec.eq_of_getLsbD_eq
  intro k hk
  rw [encode_getLsbD, operand_decode]
  split
  next hlow => simp only [cmdArg, BitVec.getLsbD_extractLsb', hlow, decide_true, Bool.true_and, Nat.zero_add]
  next hhigh =>
    obtain rfl | rfl : k = 64 ∨ k = 65 := by omega
    · exact h0
    · exact h1

end Sys2Proof.Machine

/-! ## What a command and an edge do to CV, ID and SK -/

namespace Sys2Proof.Machine

/-- IDGEN, PRN and UNIF write no state (R14). -/
theorem transition_arch_of_isPure (S : Arch) {i : Instr} (h : isPure i = true) : (transition S i).1 = S := by
  cases i with
  | idgen a => simp only [transition, apply_ite Prod.fst, ite_self]
  | init a => cases h
  | prn a => simp only [transition, apply_ite Prod.fst, ite_self]
  | unif a => simp only [transition, apply_ite Prod.fst, ite_self]

theorem isPure_or_init (i : Instr) : isPure i = true ∨ ∃ k, i = .init k := by
  cases i with
  | init k => exact .inr ⟨k, rfl⟩
  | _ => exact .inl rfl

theorem exec_arch {i : Instr} {s t : State} (h : exec i s = .next t) : t.arch = (transition s.arch i).1 := by
  rw [exec_eq] at h
  cases h
  rfl

/-- The inversion of `step` on the architectural state: reset clears CV, an accepted INIT loads its context, and every
other edge leaves CV, ID and SK alone (R10, R13, R14). -/
theorem step_arch_cases {s t : State} (h : step s = .next t) :
    (s.pinsNow.rst = true ∧ t.cv = false) ∨
    (∃ k, s.edgeEvent = .accept (encode (.init k)) ∧ t.arch = ⟨true, k, ks k⟩) ∨
    t.arch = s.arch := by
  obtain ⟨hrst, rfl⟩ | ⟨hrst, hempty, hvalid, hexec⟩ | ⟨-, n, r, -, rfl⟩ | ⟨-, -, r, -, rfl⟩ | ⟨-, rfl, -⟩ := step_cases h
  · exact .inl ⟨hrst, rfl⟩
  · have harch := exec_arch hexec
    obtain hpure | ⟨k, hinit⟩ := isPure_or_init (decode s.pinsNow.cmd)
    · exact .inr (.inr (harch.trans (transition_arch_of_isPure _ hpure)))
    · have hword : s.pinsNow.cmd = encode (.init k) := by rw [← hinit, encode_decode]
      rw [hinit] at harch
      exact .inr (.inl ⟨k, by simp [edgeEvent_empty hrst hempty, hvalid, hword], harch⟩)
  all_goals exact .inr (.inr rfl)

/-- Whatever KS gives every key is true of the stream's identifier and subkey words while CV = 1, once it is: no edge
writes ID or SK otherwise than to an identifier and its KS, or with CV = 0. -/
theorem step_keeps_of_ks {P : Word64 → SubkeyWords → Prop} (hks : ∀ k, P k (ks k)) {s t : State}
    (hs : s.cv = true → P s.id s.sk) (h : step s = .next t) : t.cv = true → P t.id t.sk := by
  intro hcv
  obtain ⟨-, hclear⟩ | ⟨k, -, hload⟩ | hkeep := step_arch_cases h
  · rw [hclear] at hcv
    cases hcv
  · obtain ⟨-, rfl, hsk⟩ : t.cv = true ∧ t.id = k ∧ t.sk = ks k := by simpa [State.arch] using hload
    exact hsk ▸ hks t.id
  · obtain ⟨hcv', hid, hsk⟩ : t.cv = s.cv ∧ t.id = s.id ∧ t.sk = s.sk := by simpa [State.arch] using hkeep
    rw [hid, hsk]
    exact hs (hcv' ▸ hcv)

end Sys2Proof.Machine

/-! ## The padding bits of packed words (R113) -/

namespace Sys2Proof.Machine

/-- A right-aligned six-bit chunk leaves bits 7 and 6 of its byte zero. -/
theorem packChunks_and_padMask (a b c d : Chunk) : packChunks a b c d &&& padMask = 0#32 := by
  apply BitVec.eq_of_getLsbD_eq
  intro i hi
  simp only [packChunks, BitVec.getLsbD_and, BitVec.getLsbD_or, BitVec.getLsbD_shiftLeft, BitVec.getLsbD_setWidth]
  interval_cases i <;> simp [padMask]

/-- Every word PACK makes of a list of raw subkeys has zero padding. -/
theorem and_padMask_of_mem_packAll {Ks : List RawSubkey} {w : Word32} (h : w ∈ packAll Ks) : w &&& padMask = 0#32 := by
  induction Ks with
  | nil => cases h
  | cons K Ks ih =>
    obtain rfl | rfl | hrest : w = packEven K ∨ w = packOdd K ∨ w ∈ packAll Ks := by simpa [packAll] using h
    · exact packChunks_and_padMask ..
    · exact packChunks_and_padMask ..
    · exact ih hrest

theorem ks_and_padMask (k : Word64) (i : Fin 32) : (ks k)[i] &&& padMask = 0#32 :=
  and_padMask_of_mem_packAll (Ks := rawKeys k) (List.getElem_mem _)

end Sys2Proof.Machine

/-! ## Runs -/

namespace Sys2Proof.Machine

/-- No edge stops the block (R55, R201). -/
theorem exists_step_eq_next (s : State) : ∃ t, step s = .next t := by
  cases h : s.edgeEvent with
  | reset => exact ⟨_, step_of_reset h⟩
  | accept w => exact ⟨_, (step_of_accept h).trans (exec_eq _ _)⟩
  | wait => exact ⟨_, step_of_wait h⟩
  | take => exact ⟨_, step_of_take h⟩
  | hold => exact ⟨_, step_of_hold h⟩

/-- What every step keeps, every run keeps. -/
theorem runEdges_keeps {P : State → Prop} (hstep : ∀ s t, P s → step s = .next t → P t) {n : Nat} {s t : State}
    (hs : P s) (h : runEdges n s = .next t) : P t := by
  induction n generalizing s with
  | zero =>
    cases h
    exact hs
  | succ n ih =>
    obtain ⟨u, hu⟩ := exists_step_eq_next s
    rw [runEdges_succ hu] at h
    exact ih (hstep s u hs hu) h

end Sys2Proof.Machine

/-! ## States no host can tell apart: what the ports show, and what each operation keeps -/

namespace Sys2Proof.Machine

/-- No command reads ID, and SK is read only while CV = 1 (R11, R22, R151, R152). -/
theorem transition_response_congr {a b : Arch} (hcv : a.cv = b.cv) (hsk : a.cv = true → a.sk = b.sk) (i : Instr) :
    (transition a i).2 = (transition b i).2 := by
  cases i with
  | idgen arg => simp only [transition, apply_ite Prod.snd]
  | init arg => rfl
  | prn arg =>
    simp only [transition, apply_ite Prod.snd, ← hcv]
    exact ite_congr rfl (fun h => by rw [hsk h]) (fun _ => rfl)
  | unif arg =>
    simp only [transition, apply_ite Prod.snd, ← hcv]
    exact ite_congr rfl (fun h => by rw [hsk h]) (fun _ => rfl)

/-- What a host can tell of CV and SK after a command depends on what it could tell before (R14, R22). -/
theorem transition_arch_congr {a b : Arch} (hcv : a.cv = b.cv) (hsk : a.cv = true → a.sk = b.sk) (i : Instr) :
    (transition a i).1.cv = (transition b i).1.cv ∧
      ((transition a i).1.cv = true → (transition a i).1.sk = (transition b i).1.sk) := by
  obtain hpure | ⟨k, rfl⟩ := isPure_or_init i
  · rw [transition_arch_of_isPure a hpure, transition_arch_of_isPure b hpure]
    exact ⟨hcv, hsk⟩
  · exact ⟨rfl, fun _ => rfl⟩

section
variable {s t : State}

theorem State.SameToTheHost.pinsNow (h : s.SameToTheHost t) : s.pinsNow = t.pinsNow :=
  congrArg (List.headD · Pins.quiet) h.pins

theorem State.SameToTheHost.cmdReady (h : s.SameToTheHost t) : s.cmdReady = t.cmdReady := by
  simp only [State.cmdReady, h.slot, h.pinsNow]

theorem State.SameToTheHost.rspValid (h : s.SameToTheHost t) : s.rspValid = t.rspValid := by
  simp only [State.rspValid, h.slot, h.pinsNow]

theorem State.SameToTheHost.rspPort (h : s.SameToTheHost t) : s.rspPort = t.rspPort := by
  simp only [State.rspPort, h.rspValid, h.slot, h.edge]

theorem State.SameToTheHost.edgeEvent (h : s.SameToTheHost t) : s.edgeEvent = t.edgeEvent := by
  simp only [State.edgeEvent, h.pinsNow, h.cmdReady, h.rspValid, h.slot]

theorem State.SameToTheHost.tick (h : s.SameToTheHost t) : s.tick.SameToTheHost t.tick :=
  { h with pins := congrArg List.tail h.pins, edge := congrArg (· + 1) h.edge }

/-- Reset leaves arbitrary contents in ID and SK, and hides them by CV = 0 (R22). -/
theorem State.SameToTheHost.resetEdge (h : s.SameToTheHost t) : s.resetEdge.SameToTheHost t.resetEdge :=
  { h with cv := rfl, sk := nofun, slot := rfl }

theorem State.SameToTheHost.advance (h : s.SameToTheHost t) : s.advance.SameToTheHost t.advance := by
  unfold State.advance
  rw [h.slot]
  split
  · exact h
  · exact { h with slot := rfl }

theorem State.SameToTheHost.takeResponse (h : s.SameToTheHost t) : s.takeResponse.SameToTheHost t.takeResponse := by
  unfold State.takeResponse
  rw [h.slot]
  split
  · exact h
  · exact { h with slot := rfl, taken := congrArg (· ++ _) h.taken }

theorem State.SameToTheHost.exec (h : s.SameToTheHost t) (i : Instr) :
    ∃ s' t', exec i s = .next s' ∧ exec i t = .next t' ∧ s'.SameToTheHost t' := by
  have hrsp := transition_response_congr (a := s.arch) (b := t.arch) h.cv h.sk i
  obtain ⟨hcv, hsk⟩ := transition_arch_congr (a := s.arch) (b := t.arch) h.cv h.sk i
  exact ⟨_, _, exec_eq i s, exec_eq i t,
    { h with cv := hcv, sk := hsk, slot := by rw [State.respond_slot, State.respond_slot, h.lat, hrsp] }⟩

/-- Both blocks see the same event, since it depends on the slot and the pins alone, and every event keeps them
indistinguishable. -/
theorem State.SameToTheHost.step (h : s.SameToTheHost t) :
    ∃ s' t', step s = .next s' ∧ step t = .next t' ∧ s'.SameToTheHost t' := by
  have hs := h.edgeEvent
  cases ht : t.edgeEvent with
  | reset => exact ⟨_, _, step_of_reset (hs.trans ht), step_of_reset ht, h.tick.resetEdge⟩
  | accept w =>
    rw [step_of_accept (hs.trans ht), step_of_accept ht]
    exact h.tick.exec (decode w)
  | wait => exact ⟨_, _, step_of_wait (hs.trans ht), step_of_wait ht, h.tick.advance⟩
  | take => exact ⟨_, _, step_of_take (hs.trans ht), step_of_take ht, h.tick.takeResponse⟩
  | hold => exact ⟨_, _, step_of_hold (hs.trans ht), step_of_hold ht, h.tick⟩

end

end Sys2Proof.Machine

/-! ## The statements about the state (10_state.md) -/

namespace Sys2Proof.Proofs

open Sys2Proof.Machine

/-- Settles O10: CV and the slot are the fields of `State.resetWith`, and the ports read the slot and `rst` alone. -/
theorem stateAfterReset : Obligations.StateAfterReset := by
  intro lat ps hrst
  have hnow : ((State.resetWith lat).driving ps).pinsNow = ps.headD Pins.quiet := by
    simp [State.pinsNow, State.resetWith]
  have hready : ((State.resetWith lat).driving ps).cmdReady = true := by
    rw [State.cmdReady, hnow, hrst]
    rfl
  exact ⟨rfl, rfl, hready, rfl⟩

/-- Settles O29: the context and the padding invariants ask nothing while CV = 0, and there is no response yet. -/
theorem resetMeetsTheInvariants : Obligations.ResetMeetsTheInvariants := fun _ _ =>
  { context := nofun, pads := nofun, responses := ⟨nofun, nofun⟩ }

/-- Settles O26: the only context that is ever loaded is an identifier with its own KS. -/
theorem stepKeepsContextInvariant : Obligations.StepKeepsContextInvariant := fun _ _ hinv hstep =>
  step_keeps_of_ks (P := fun identifier words => words = ks identifier) (fun _ => rfl) hinv hstep

/-- Settles O27: the only subkey words that are ever loaded are PACK's. -/
theorem stepKeepsSubkeyPaddingZero : Obligations.StepKeepsSubkeyPaddingZero := fun _ _ hpads hstep =>
  step_keeps_of_ks (P := fun _ words => ∀ i : Fin 32, words[i] &&& padMask = 0#32) ks_and_padMask hpads hstep

/-- Settles O30: the context invariant holds at reset and every step keeps it. -/
theorem reachableStatesHoldTheContextInvariant : Obligations.ReachableStatesHoldTheContextInvariant :=
  fun lat ps _ _ hrun => runEdges_keeps stepKeepsContextInvariant (resetMeetsTheInvariants lat ps).context hrun

/-- Settles O31, by the inversion of `step` on the architectural state: the third case changes nothing. -/
theorem onlyInitAndResetChangeTheContext : Obligations.OnlyInitAndResetChangeTheContext := by
  intro s t hstep hchange
  obtain ⟨hrst, -⟩ | hinit | hkeep := step_arch_cases hstep
  · exact .inl hrst
  · exact .inr hinit
  · exact absurd hkeep hchange

/-- Settles O32: the ports and the event of an edge are functions of what the two states share, and so every event leads to
states that share it again. -/
theorem hiddenStateIsUnobservable : Obligations.HiddenStateIsUnobservable := by
  intro s t s' t' hsame hs ht
  obtain ⟨u, v, hu, hv, huv⟩ := hsame.step
  obtain rfl : u = s' := Host.Outcome.next.inj (hu.symm.trans hs)
  obtain rfl : v = t' := Host.Outcome.next.inj (hv.symm.trans ht)
  exact ⟨huv, hsame.cmdReady, hsame.rspValid, hsame.rspPort⟩

end Sys2Proof.Proofs

/-! ## Commands and sequences of commands under the transition of R55 -/

namespace Sys2Proof.Machine

/-- The decoder reads off the fields the encoder wrote (R51, R52). -/
theorem decode_encode (i : Instr) : decode (encode i) = i := by
  obtain ⟨h1, h0⟩ := encode_opcodeBits i
  rw [decode, h1, h0, cmdArg_encode]
  cases i <;> simp [opcode, operand]

/-- A command that writes no state sees the same state again, and INIT depends on no state at all (R35). -/
theorem transition_idem (S : Arch) (i : Instr) : transition (transition S i).1 i = transition S i := by
  obtain hpure | ⟨k, rfl⟩ := isPure_or_init i
  · rw [transition_arch_of_isPure S hpure]
  · rfl

theorem transitions_append (S : Arch) (is js : List Instr) :
    transitions S (is ++ js) = ((transitions (transitions S is).1 js).1,
      (transitions S is).2 ++ (transitions (transitions S is).1 js).2) := by
  induction is generalizing S with
  | nil => rfl
  | cons i is ih => simp only [List.cons_append, transitions, ih]

/-- Commands that write no state all see the state the sequence began with (R14, R40). -/
theorem transitions_of_isPure (S : Arch) {is : List Instr} (h : ∀ i ∈ is, isPure i = true) :
    transitions S is = (S, is.map fun i => (transition S i).2) := by
  induction is with
  | nil => rfl
  | cons i is ih =>
    obtain ⟨hi, his⟩ := List.forall_mem_cons.mp h
    simp only [transitions, transition_arch_of_isPure S hi, ih his, List.map_cons]

end Sys2Proof.Machine

/-! ## Hosts that do not reset: what the edges to come keep of that -/

namespace Sys2Proof.Machine

theorem State.NoResetFor.pinsNow_rst {s : State} {n : Nat} (h : s.NoResetFor (n + 1)) : s.pinsNow.rst = false := by
  unfold State.pinsNow
  cases hpins : s.pins with
  | nil => rfl
  | cons p ps => exact h p (by simp [hpins])

theorem State.NoResetFor.of_step {s t : State} {n : Nat} (h : s.NoResetFor (n + 1)) (hstep : step s = .next t) :
    t.NoResetFor n := by
  obtain ⟨-, hpins, -⟩ := Proofs.stepKeepsLatencies s t hstep
  intro p hp
  rw [hpins, ← List.drop_one, List.take_drop, Nat.add_comm] at hp
  exact h p (List.mem_of_mem_drop hp)

end Sys2Proof.Machine

/-! ## Runs without reset perform the accepted commands (R38, R55) -/

namespace Sys2Proof.Machine

/-- R56: only an idle block accepts a command. -/
theorem slot_of_edgeEvent_accept {s : State} {w : CmdWord} (h : s.edgeEvent = .accept w) : s.slot = .empty := by
  unfold State.edgeEvent State.cmdReady at h
  split_ifs at h with _ hready
  · simp only [Bool.and_eq_true, decide_eq_true_eq] at hready
    obtain ⟨⟨hempty, -⟩, -⟩ := hready
    exact hempty
  · split at h <;> cases h

/-- R190: nothing but `rst = 1` resets. -/
theorem rst_of_edgeEvent_reset {s : State} (h : s.edgeEvent = .reset) : s.pinsNow.rst = true := by
  unfold State.edgeEvent at h
  split_ifs at h with hrst
  · exact hrst
  · split at h <;> cases h

theorem acceptedIn_succ {s t : State} (n : Nat) (h : step s = .next t) :
    acceptedIn (n + 1) s = acceptedAt s ++ acceptedIn n t := by
  simp only [acceptedIn, h]

/-- The responses the block has given: those taken, oldest first, and the one in flight. -/
def State.responsesGiven (s : State) : List Response := s.taken ++ s.slot.response.toList

@[simp] theorem State.responsesGiven_tick (s : State) : s.tick.responsesGiven = s.responsesGiven := rfl

@[simp] theorem State.responsesGiven_advance (s : State) : s.advance.responsesGiven = s.responsesGiven := by
  cases h : s.slot <;> simp [State.responsesGiven, State.advance, h, Slot.response]

/-- Taking a response moves it, and neither loses nor makes one. -/
@[simp] theorem State.responsesGiven_takeResponse (s : State) : s.takeResponse.responsesGiven = s.responsesGiven := by
  cases h : s.slot <;> simp [State.responsesGiven, State.takeResponse, h, Slot.response]

/-- A command that an idle block performs gives one response more, the transition's. -/
theorem responsesGiven_of_exec {i : Instr} {s t : State} (hempty : s.slot = .empty) (h : exec i s = .next t) :
    t.responsesGiven = s.responsesGiven ++ [(transition s.arch i).2] := by
  rw [exec_eq] at h
  cases h
  simp [State.responsesGiven, hempty, Slot.response]

/-- One edge without reset performs the command it accepts, if any, and gives its response: the other events leave CV, ID,
SK and the responses given alone. -/
theorem step_refines_transitions {s t : State} (hrst : s.pinsNow.rst = false) (h : step s = .next t) :
    t.arch = (transitions s.arch (acceptedAt s)).1 ∧
      t.responsesGiven = s.responsesGiven ++ (transitions s.arch (acceptedAt s)).2 := by
  cases hevent : s.edgeEvent with
  | reset => rw [rst_of_edgeEvent_reset hevent] at hrst; cases hrst
  | accept w =>
    rw [step_of_accept hevent] at h
    simp only [acceptedAt, hevent, fetchCommand, transitions]
    have hempty : s.slot = .empty := slot_of_edgeEvent_accept hevent
    exact ⟨exec_arch (s := s.tick) h, responsesGiven_of_exec (s := s.tick) hempty h⟩
  | wait =>
    rw [step_of_wait hevent] at h
    cases h
    simp [acceptedAt, hevent, transitions, State.arch]
  | take =>
    rw [step_of_take hevent] at h
    cases h
    simp [acceptedAt, hevent, transitions, State.arch]
  | hold =>
    rw [step_of_hold hevent] at h
    cases h
    simp [acceptedAt, hevent, transitions]

/-- The induction over the edges, from any state: a command in flight has been performed already. -/
theorem runEdges_refines_transitions {n : Nat} {s t : State} (hreset : s.NoResetFor n) (h : runEdges n s = .next t) :
    t.arch = (transitions s.arch (acceptedIn n s)).1 ∧
      t.responsesGiven = s.responsesGiven ++ (transitions s.arch (acceptedIn n s)).2 := by
  induction n generalizing s with
  | zero =>
    cases h
    simp [acceptedIn, transitions]
  | succ n ih =>
    obtain ⟨u, hu⟩ := exists_step_eq_next s
    rw [runEdges_succ hu] at h
    obtain ⟨harch, hgiven⟩ := step_refines_transitions hreset.pinsNow_rst hu
    obtain ⟨harch', hgiven'⟩ := ih (hreset.of_step hu) h
    simp only [acceptedIn_succ n hu, transitions_append]
    rw [harch', hgiven', hgiven, harch, List.append_assoc]
    exact ⟨rfl, rfl⟩

end Sys2Proof.Machine

/-! ## Transactions (R56) -/

namespace Sys2Proof.Machine

theorem runEdges_add {n m : Nat} {s t : State} (h : runEdges n s = .next t) : runEdges (n + m) s = runEdges m t := by
  induction n generalizing s with
  | zero =>
    cases h
    rw [Nat.zero_add]
  | succ n ih =>
    obtain ⟨u, hu⟩ := exists_step_eq_next s
    rw [runEdges_succ hu] at h
    rw [Nat.succ_add, runEdges_succ hu, ih h]

/-- R56: a block that works on a command only counts down, whatever the host drives except `rst`. -/
theorem runEdges_waiting {n k : Nat} {r : Response} {s : State} (hslot : s.slot = .holding (n + k) r)
    (hreset : s.NoResetFor n) :
    runEdges n s = .next { s with slot := .holding k r, pins := s.pins.drop n, edge := s.edge + n } := by
  induction n generalizing s with
  | zero =>
    rw [Nat.zero_add] at hslot
    simp [← hslot]
  | succ n ih =>
    rw [Nat.succ_add] at hslot
    have hstep : step s = .next { s.tick with slot := .holding (n + k) r } := by
      rw [step_of_wait (edgeEvent_waiting hreset.pinsNow_rst hslot),
        State.advance_holding (s := s.tick) (by simpa using hslot)]
    rw [runEdges_succ hstep, ih rfl (hreset.of_step hstep)]
    simp [State.tick, Nat.add_comm, Nat.add_left_comm]

/-- The state after a transaction with an idle block, in terms of the transition of R55. -/
def State.afterTransaction (s : State) (i : Instr) : State :=
  { s.withArch (transition s.arch i).1 with
    taken := s.taken ++ [(transition s.arch i).2]
    edge := s.edge + transactionEdges s.lat i }

@[simp] theorem State.afterTransaction_slot (s : State) (i : Instr) : (s.afterTransaction i).slot = s.slot := rfl
@[simp] theorem State.afterTransaction_arch (s : State) (i : Instr) :
    (s.afterTransaction i).arch = (transition s.arch i).1 := rfl
@[simp] theorem State.afterTransaction_taken (s : State) (i : Instr) :
    (s.afterTransaction i).taken = s.taken ++ [(transition s.arch i).2] := rfl

/-- The edge of acceptance: the block has performed the command, and the host has the rest of the transaction to drive. -/
theorem step_transactionPins {s : State} (hempty : s.slot = .empty) (i : Instr) :
    step (s.driving (transactionPins s.lat i)) =
      .next { s.withArch (transition s.arch i).1 with
        slot := .holding (latencyWait s.lat i) (transition s.arch i).2
        pins := List.replicate (latencyWait s.lat i) Pins.quiet ++ ⟨false, false, 0#66, true⟩ :: s.pins
        edge := s.edge + 1 } := by
  have haccept : (s.driving (transactionPins s.lat i)).edgeEvent = .accept (encode i) := edgeEvent_empty rfl hempty
  rw [step_of_accept haccept, decode_encode, exec_eq]
  simp [State.tick, State.respond, State.withArch, transactionPins, State.driving, State.arch]

/-- The edge at which a ready host takes the valid response (R56). -/
theorem step_of_ready {s : State} {r : Response} (hslot : s.slot = .holding 0 r) (hrst : s.pinsNow.rst = false)
    (hready : s.pinsNow.rspReady = true) :
    step s = .next { s.tick with slot := .empty, taken := s.taken ++ [r] } := by
  rw [step_of_take (by simp [edgeEvent_valid hrst hslot, hready]),
    State.takeResponse_holding (s := s.tick) (by simpa using hslot), State.tick_taken]

/-- A quiet host does not reset (log entry 5). -/
theorem noResetFor_of_pins_eq_quiet {s : State} {n : Nat} {ps : List Pins}
    (h : s.pins = List.replicate n Pins.quiet ++ ps) : s.NoResetFor n := by
  intro p hp
  rw [h, List.take_left' List.length_replicate] at hp
  rw [List.eq_of_mem_replicate hp, Pins.quiet]

/-- A transaction's three parts are the edge of acceptance, the edges at which the block works, and the edge at which the
host takes the response. -/
theorem transact_eq {s : State} (hempty : s.slot = .empty) (i : Instr) :
    transact i s = .next (s.afterTransaction i) := by
  rw [transact, transactionEdges, runEdges_succ (step_transactionPins hempty i),
    runEdges_add (runEdges_waiting (k := 0) rfl (noResetFor_of_pins_eq_quiet rfl)),
    runEdges_succ (step_of_ready rfl ?hrst ?hready), runEdges_zero]
  case hrst => simp [State.pinsNow]
  case hready => simp [State.pinsNow]
  have hedges : s.edge + 1 + latencyWait s.lat i + 1 = s.edge + (latencyWait s.lat i + 2) := by omega
  simp [State.afterTransaction, transactionEdges, State.tick, State.withArch, hempty, hedges]

/-- A sequence of transactions with an idle block is the sequence of R55's transitions, and leaves the block idle. -/
theorem transactAll_refines_transitions (is : List Instr) {s : State} (hempty : s.slot = .empty) :
    ∃ t, transactAll is s = .next t ∧ t.slot = .empty ∧ t.arch = (transitions s.arch is).1 ∧
      t.taken = s.taken ++ (transitions s.arch is).2 := by
  induction is generalizing s with
  | nil => exact ⟨s, rfl, hempty, rfl, by simp [transitions]⟩
  | cons i is ih =>
    obtain ⟨t, hrun, hslot, harch, htaken⟩ := ih (s := s.afterTransaction i) hempty
    refine ⟨t, ?_, hslot, harch, ?_⟩
    · simp only [transactAll, transact_eq hempty, hrun]
    · simp [htaken, transitions]

end Sys2Proof.Machine

/-! ## The statements about commands in sequence (20_memory.md) -/

namespace Sys2Proof.Proofs

open Sys2Proof.Machine

/-- Settles O23: the second response replaces the first, and the second transition is the first one again. -/
theorem commandsAreIdempotent : Obligations.CommandsAreIdempotent := by
  intro i s t h
  rw [exec_eq] at h
  cases h
  rw [exec_eq, State.arch_respond, State.arch_withArch, transition_idem]
  rfl

/-- Settles O33: the refinement holds from any state; an idle block has no response in flight. -/
theorem runsRefineTheTransition : Obligations.RunsRefineTheTransition := by
  intro n s t hempty hreset hrun
  simpa [State.responsesGiven, hempty, Slot.response] using runEdges_refines_transitions hreset hrun

/-- Settles O35: a sequence of transactions is a sequence of transitions, and commands that write no state do not see each
other. -/
theorem pureCommandsAnswerIndependently : Obligations.PureCommandsAnswerIndependently := by
  intro cs s hempty hpure
  obtain ⟨t, hrun, -, harch, htaken⟩ := transactAll_refines_transitions cs hempty
  rw [transitions_of_isPure s.arch hpure] at harch htaken
  exact ⟨t, hrun, harch, htaken⟩

end Sys2Proof.Proofs

/-! ## Numbers that stand for command words (R51, R59) -/

namespace Sys2Proof.Machine

/-- A number the table's decoder reads is decoded as the word on the port. -/
theorem decode_ofNat_of_decodeTableWord {nbits w : Nat} {i : Instr} (h : decodeTableWord nbits w = some i) :
    decode (BitVec.ofNat 66 (w % 2 ^ nbits)) = i := by
  unfold decodeTableWord decodeNumber at h
  split_ifs at h with hfits
  · exact Option.some.inj h
  · cases h

end Sys2Proof.Machine

/-! ## Response words (R53, R54) -/

namespace Sys2Proof.Machine

/-- A host reads off the fields the block wrote. -/
theorem decodeResponse_encodeResponse (r : Response) : decodeResponse (encodeResponse r) = .ok r := by
  obtain ⟨status, data⟩ := r
  obtain ⟨h1, h0⟩ := encodeResponse_statusBits ⟨status, data⟩
  rw [decodeResponse, h1, h0, data_encodeResponse]
  cases status <;> simp [statusCode]

theorem decodeResponse_eq_error_iff (w : RspWord) :
    decodeResponse w = .error .reservedStatus ↔ w.getLsbD 65 = true ∧ w.getLsbD 64 = true := by
  constructor
  · intro h
    unfold decodeResponse at h
    split at h
    next => cases h
    next => cases h
    next => cases h
    next h1 h0 => exact ⟨h1, h0⟩
  · rintro ⟨h1, h0⟩
    rw [decodeResponse, h1, h0]

end Sys2Proof.Machine

/-! ## The responses of the transition (R54, R55) -/

namespace Sys2Proof.Machine

theorem transition_idgen_legal (S : Arch) {a : Word64} (h : a.toNat < 2 ^ 56) :
    transition S (.idgen a) = (S, ⟨.ok, idx (a.extractLsb' 0 56)⟩) := if_pos h

theorem transition_idgen_large (S : Arch) {a : Word64} (h : 2 ^ 56 ≤ a.toNat) :
    transition S (.idgen a) = (S, ⟨.rangeErr, 0#64⟩) := if_neg (Nat.not_lt.mpr h)

theorem transition_init (S : Arch) (a : Word64) :
    transition S (.init a) = (⟨true, a, ks a⟩, ⟨.ok, 0#64⟩) := rfl

/-- Both errors are answered with data 0 (R53, R171). -/
theorem transition_response_wf (S : Arch) (i : Instr) : (transition S i).2.Wf := by
  cases i with
  | idgen a =>
    obtain h | h := Nat.lt_or_ge a.toNat (2 ^ 56)
    · simp [transition_idgen_legal S h]
    · simp [transition_idgen_large S h]
  | init a => simp [transition_init]
  | prn a => cases h : S.cv <;> simp [transition, h]
  | unif a => cases h : S.cv <;> simp [transition, h]

theorem transition_status_eq_rangeErr_iff (S : Arch) (i : Instr) :
    (transition S i).2.status = .rangeErr ↔ ∃ a : Word64, i = .idgen a ∧ 2 ^ 56 ≤ a.toNat := by
  cases i with
  | idgen a =>
    obtain h | h := Nat.lt_or_ge a.toNat (2 ^ 56)
    · simpa [transition_idgen_legal S h] using h
    · simpa [transition_idgen_large S h] using h
  | init a => simp [transition_init]
  | prn a => cases h : S.cv <;> simp [transition, h]
  | unif a => cases h : S.cv <;> simp [transition, h]

theorem transition_status_eq_noContext_iff (S : Arch) (i : Instr) :
    (transition S i).2.status = .noContext ↔ S.cv = false ∧ ∃ c : Word64, i = .prn c ∨ i = .unif c := by
  cases i with
  | idgen a =>
    obtain h | h := Nat.lt_or_ge a.toNat (2 ^ 56)
    · simp [transition_idgen_legal S h]
    · simp [transition_idgen_large S h]
  | init a => simp [transition_init]
  | prn a => cases h : S.cv <;> simp [transition, h]
  | unif a => cases h : S.cv <;> simp [transition, h]

/-- Every command is answered, with the transition's response. -/
theorem answerOf_exec (i : Instr) (s : State) : answerOf (exec i s) = some (transition s.arch i).2 := by
  rw [exec_eq]
  rfl

/-- The responses in flight and taken are those the block has given. -/
theorem responsesWf_iff (s : State) : s.ResponsesWf ↔ ∀ r ∈ s.responsesGiven, r.Wf := by
  simp only [State.ResponsesWf, State.responsesGiven, List.mem_append, Option.mem_toList, or_imp, forall_and]
  exact and_comm

/-- The inversion of `step` on the responses given: reset drops the one in flight, an accepted command adds the
transition's, and every other edge keeps them. -/
theorem step_responsesGiven_cases {s t : State} (h : step s = .next t) :
    t.responsesGiven = s.taken ∨
    (∃ i, t.responsesGiven = s.responsesGiven ++ [(transition s.arch i).2]) ∨
    t.responsesGiven = s.responsesGiven := by
  cases hevent : s.edgeEvent with
  | reset =>
    rw [step_of_reset hevent] at h
    cases h
    exact .inl (List.append_nil _)
  | accept w =>
    rw [step_of_accept hevent] at h
    have hempty : s.slot = .empty := slot_of_edgeEvent_accept hevent
    exact .inr (.inl ⟨_, responsesGiven_of_exec (s := s.tick) hempty h⟩)
  | wait =>
    rw [step_of_wait hevent] at h
    cases h
    exact .inr (.inr (by simp))
  | take =>
    rw [step_of_take hevent] at h
    cases h
    exact .inr (.inr (by simp))
  | hold =>
    rw [step_of_hold hevent] at h
    cases h
    exact .inr (.inr (by simp))

end Sys2Proof.Machine

/-! ## The ports in each situation of the slot (R56) -/

namespace Sys2Proof.Machine

section
variable {s : State} {n : Nat} {r : Response}

theorem cmdReady_of_empty (h : s.slot = .empty) (hrst : s.pinsNow.rst = false) : s.cmdReady = true := by
  simp [State.cmdReady, h, hrst]

theorem cmdReady_of_holding (h : s.slot = .holding n r) : s.cmdReady = false := by
  simp [State.cmdReady, h]

theorem rspValid_of_empty (h : s.slot = .empty) : s.rspValid = false := by
  simp [State.rspValid, h]

theorem rspValid_of_waiting (h : s.slot = .holding (n + 1) r) : s.rspValid = false := by
  simp [State.rspValid, h]

theorem rspValid_of_valid (h : s.slot = .holding 0 r) (hrst : s.pinsNow.rst = false) : s.rspValid = true := by
  simp [State.rspValid, h, hrst]

theorem rspPort_of_valid (h : s.slot = .holding 0 r) (hrst : s.pinsNow.rst = false) :
    s.rspPort = encodeResponse r := by
  simp [State.rspPort, rspValid_of_valid h hrst, h]

end

end Sys2Proof.Machine

/-! ## What the host drives at the edges to come -/

namespace Sys2Proof.Machine

section
variable {P : Pins → Prop} {s : State} {n : Nat}

/-- What is true of a quiet host and of the pins of the coming edges is true of the pins now (log entry 5). -/
theorem pinsNow_of_forall_take (hquiet : P Pins.quiet) (h : ∀ p ∈ s.pins.take (n + 1), P p) : P s.pinsNow := by
  unfold State.pinsNow
  cases hpins : s.pins with
  | nil => exact hquiet
  | cons p ps => exact h p (by simp [hpins])

theorem forall_take_of_step {t : State} (h : ∀ p ∈ s.pins.take (n + 1), P p) (hstep : step s = .next t) :
    ∀ p ∈ t.pins.take n, P p := by
  obtain ⟨-, hpins, -⟩ := Proofs.stepKeepsLatencies s t hstep
  intro p hp
  rw [hpins, ← List.drop_one, List.take_drop, Nat.add_comm] at hp
  exact h p (List.mem_of_mem_drop hp)

theorem State.NoResetFor.mono {m : Nat} (h : s.NoResetFor m) (hle : n ≤ m) : s.NoResetFor n :=
  fun p hp => h p (List.take_subset_take_left s.pins hle hp)

end

end Sys2Proof.Machine

/-! ## Acceptance, waiting and holding (R56, R200) -/

namespace Sys2Proof.Machine

theorem edgeEvent_of_presented {s : State} (hempty : s.slot = .empty) (hrst : s.pinsNow.rst = false)
    (hvalid : s.pinsNow.cmdValid = true) : s.edgeEvent = .accept s.pinsNow.cmd := by
  simp [edgeEvent_empty hrst hempty, hvalid]

/-- The `n` edges after the edge of acceptance, while `k` of the latency's cycles are still to come: the command's
response is in flight and the host has got nothing. -/
theorem runEdges_of_presented {s : State} (hempty : s.slot = .empty) (hrst : s.pinsNow.rst = false)
    (hvalid : s.pinsNow.cmdValid = true) {n k : Nat} (hlat : latencyWait s.lat (decode s.pinsNow.cmd) = n + k)
    (hreset : s.NoResetFor (n + 1)) :
    ∃ t, runEdges (n + 1) s = .next t ∧ t.slot = .holding k (transition s.arch (decode s.pinsNow.cmd)).2 ∧
      t.taken = s.taken := by
  have hstep := (step_of_accept (edgeEvent_of_presented hempty hrst hvalid)).trans (exec_eq _ _)
  rw [runEdges_succ hstep, runEdges_waiting (k := k) (congrArg (Slot.holding · _) hlat) (hreset.of_step hstep)]
  exact ⟨_, rfl, rfl, rfl⟩

/-- A host that is not ready leaves a valid response where it is: only time goes by. -/
theorem step_of_notReady {s : State} {r : Response} (hslot : s.slot = .holding 0 r) (hrst : s.pinsNow.rst = false)
    (hready : s.pinsNow.rspReady = false) : step s = .next s.tick :=
  step_of_hold (by simp [edgeEvent_valid hrst hslot, hready])

theorem runEdges_notReady {n : Nat} {r : Response} {s : State} (hslot : s.slot = .holding 0 r)
    (hreset : s.NoResetFor n) (hready : s.NotReadyFor n) :
    runEdges n s = .next { s with pins := s.pins.drop n, edge := s.edge + n } := by
  induction n generalizing s with
  | zero => rfl
  | succ n ih =>
    have hstep : step s = .next s.tick :=
      step_of_notReady hslot hreset.pinsNow_rst (pinsNow_of_forall_take (P := (·.rspReady = false)) rfl hready)
    rw [runEdges_succ hstep, ih (s := s.tick) hslot (hreset.of_step hstep) (forall_take_of_step hready hstep)]
    simp [State.tick, Nat.add_comm, Nat.add_left_comm]

end Sys2Proof.Machine

/-! ## Lines of text: hexadecimal digits (R60) -/

namespace Sys2Proof.Machine

theorem digitValue_hexChar {d : Nat} (h : d < 16) : digitValue 16 (hexChar d) = some d := by
  interval_cases d <;> rfl

@[simp] theorem hexDigits_length (k n : Nat) : (hexDigits k n).length = k := by
  induction k generalizing n with
  | zero => rfl
  | succ k ih => simp [hexDigits, ih]

theorem digitsValue_append {base acc v : Nat} {cs : List Char} (ds : List Char)
    (h : digitsValue base acc cs = some v) : digitsValue base acc (cs ++ ds) = digitsValue base v ds := by
  induction cs generalizing acc with
  | nil =>
    cases h
    rfl
  | cons c cs ih =>
    cases hc : digitValue base c with
    | none => simp [digitsValue, hc] at h
    | some d =>
      simp only [digitsValue, hc] at h
      simp only [List.cons_append, digitsValue, hc, ih h]

/-- The digits' value is the number's last `k` digits, after what stood before. -/
theorem digitsValue_hexDigits (k acc n : Nat) :
    digitsValue 16 acc (hexDigits k n) = some (16 ^ k * acc + n % 16 ^ k) := by
  induction k generalizing n with
  | zero => simp [hexDigits, digitsValue, Nat.mod_one]
  | succ k ih =>
    have hsplit : n % 16 ^ (k + 1) = n % 16 + 16 * (n / 16 % 16 ^ k) := by rw [Nat.pow_succ', Nat.mod_mul]
    rw [hexDigits, digitsValue_append _ (ih (n / 16))]
    simp only [digitsValue, digitValue_hexChar (Nat.mod_lt n (by decide : 16 > 0)), hsplit, Option.some.injEq]
    ring

/-- An operand is read as it was written: 16 digits hold all 64 bits. -/
theorem readOperand_showWord (v : Word64) : readOperand (showWord v) = .ok v := by
  have hvalue : digitsValue 16 0 (hexDigits 16 v.toNat) = some v.toNat := by
    simp [digitsValue_hexDigits, Nat.mod_eq_of_lt v.isLt]
  have hlength := hexDigits_length 16 v.toNat
  rw [showWord]
  cases hdigits : hexDigits 16 v.toNat with
  | nil => simp [hdigits] at hlength
  | cons d ds =>
    rw [hdigits] at hvalue hlength
    simp [readOperand, hvalue, hlength]

end Sys2Proof.Machine

/-! ## Lines of text: words (R60) -/

namespace Sys2Proof.Machine

/-- A character that ends no word and starts no comment. -/
abbrev PlainChar (c : Char) : Prop := c ≠ ' ' ∧ c ≠ '\t' ∧ c ≠ ';'

theorem plainChar_hexChar {d : Nat} (h : d < 16) : PlainChar (hexChar d) := by
  interval_cases d <;> decide

theorem plainChar_of_mem_hexDigits {k n : Nat} {c : Char} (h : c ∈ hexDigits k n) : PlainChar c := by
  induction k generalizing n with
  | zero => cases h
  | succ k ih =>
    obtain hc | rfl : c ∈ hexDigits k (n / 16) ∨ c = hexChar (n % 16) := by simpa [hexDigits] using h
    · exact ih hc
    · exact plainChar_hexChar (Nat.mod_lt n (by decide))

theorem plainChar_of_mem_showWord {v : Word64} {c : Char} (h : c ∈ showWord v) : PlainChar c := by
  obtain rfl | rfl | hc : c = '0' ∨ c = 'x' ∨ c ∈ hexDigits 16 v.toNat := by simpa [showWord] using h
  · decide
  · decide
  · exact plainChar_of_mem_hexDigits hc

/-- A text without a semicolon has no comment. -/
theorem stripComment_of_forall_ne {cs : List Char} (h : ∀ c ∈ cs, c ≠ ';') : stripComment cs = cs :=
  List.takeWhile_eq_self_iff.mpr fun c hc => bne_iff_ne.mpr (h c hc)

theorem splitSpaces_of_plain {w : List Char} (h : ∀ c ∈ w, PlainChar c) : splitSpaces w = [w] := by
  induction w with
  | nil => rfl
  | cons c w ih =>
    obtain ⟨⟨hspace, htab, -⟩, hw⟩ := List.forall_mem_cons.mp h
    simp [splitSpaces, hspace, htab, ih hw, consWord]

theorem splitSpaces_append_space {w : List Char} (h : ∀ c ∈ w, PlainChar c) (cs : List Char) :
    splitSpaces (w ++ ' ' :: cs) = w :: splitSpaces cs := by
  induction w with
  | nil => simp [splitSpaces]
  | cons c w ih =>
    obtain ⟨⟨hspace, htab, -⟩, hw⟩ := List.forall_mem_cons.mp h
    simp [splitSpaces, hspace, htab, ih hw, consWord]

/-- The mnemonics are plain words, and RESET is none of them. -/
theorem plain_of_lineOf_eq_some {m : List Char} {f : Word64 → Line} (h : lineOf m = some f) :
    (∀ c ∈ m, PlainChar c) ∧ m ≠ [] ∧ m ≠ ['R', 'E', 'S', 'E', 'T'] := by
  unfold lineOf at h
  split_ifs at h
  all_goals
    subst m
    simp [PlainChar]

/-- A plain mnemonic, a space and an operand are two words. -/
theorem splitWords_showLine {m : List Char} (hm : ∀ c ∈ m, PlainChar c) (hne : m ≠ []) (a : Word64) :
    splitWords (stripComment (m ++ ' ' :: showWord a)) = [m, showWord a] := by
  have hcomment : ∀ c ∈ m ++ ' ' :: showWord a, c ≠ ';' := by
    intro c hc
    obtain hc | rfl | hc : c ∈ m ∨ c = ' ' ∨ c ∈ showWord a := by simpa using hc
    · obtain ⟨-, -, hsemicolon⟩ := hm c hc
      exact hsemicolon
    · decide
    · obtain ⟨-, -, hsemicolon⟩ := plainChar_of_mem_showWord hc
      exact hsemicolon
  rw [stripComment_of_forall_ne hcomment, splitWords, splitSpaces_append_space hm,
    splitSpaces_of_plain fun _ => plainChar_of_mem_showWord]
  simp [hne, showWord]

/-- A line with an operand is read as what its mnemonic makes of the operand. -/
theorem readLine_mnemonic {m : List Char} {f : Word64 → Line} (hf : lineOf m = some f) (a : Word64) :
    readLine (m ++ ' ' :: showWord a) = .ok (f a) := by
  obtain ⟨hplain, hne, hreset⟩ := plain_of_lineOf_eq_some hf
  simp only [readLine, splitWords_showLine hplain hne, hreset, if_false, hf, readOperand_showWord]
  rfl

end Sys2Proof.Machine

/-! ## The statements about the command interface (30_encoding.md) -/

namespace Sys2Proof.Proofs

open Sys2Proof.Machine

/-- Settles O1: encoder and decoder agree on both fields, and the fields are the whole word. -/
theorem decodeAndEncodeAgree : Obligations.DecodeAndEncodeAgree := ⟨decode_encode, encode_decode⟩

/-- Settles O3: the fields read back, and only the last of the decoder's four cases is an error. -/
theorem responseWordsReadBack : Obligations.ResponseWordsReadBack :=
  ⟨decodeResponse_encodeResponse, decodeResponse_eq_error_iff⟩

/-- Settles O4, mnemonic by mnemonic; RESET has no operand. -/
theorem readLineReadsWhatShowLineWrites : Obligations.ReadLineReadsWhatShowLineWrites := by
  intro l
  match l with
  | .command (.idgen a) => exact readLine_mnemonic (m := ['I', 'D', 'G', 'E', 'N']) rfl a
  | .command (.init a) => exact readLine_mnemonic (m := ['I', 'N', 'I', 'T']) rfl a
  | .command (.prn a) => exact readLine_mnemonic (m := ['P', 'R', 'N']) rfl a
  | .command (.unif a) => exact readLine_mnemonic (m := ['U', 'N', 'I', 'F']) rfl a
  | .reset => rfl
  | .seed a => exact readLine_mnemonic (m := ['S', 'E', 'E', 'D']) rfl a
  | .draw a => exact readLine_mnemonic (m := ['D', 'R', 'A', 'W']) rfl a
  | .drawf a => exact readLine_mnemonic (m := ['D', 'R', 'A', 'W', 'F']) rfl a

/-- Settles O11: the slot counts the latency down, and the ports read the slot. -/
theorem responseValidAfterLatency : Obligations.ResponseValidAfterLatency := by
  intro s hempty hrst hvalid hreset
  constructor
  · intro k hk
    obtain ⟨j, hj⟩ := Nat.exists_eq_add_of_lt hk
    obtain ⟨t, hrun, hslot, htaken⟩ :=
      runEdges_of_presented hempty hrst hvalid (n := k) (k := j + 1) hj (hreset.mono (by omega))
    exact ⟨t, hrun, rspValid_of_waiting hslot, cmdReady_of_holding hslot, htaken⟩
  · obtain ⟨t, hrun, hslot, htaken⟩ := runEdges_of_presented hempty hrst hvalid (k := 0) rfl hreset
    exact ⟨t, hrun, cmdReady_of_holding hslot, htaken,
      fun hlow => ⟨rspValid_of_valid hslot hlow, rspPort_of_valid hslot hlow⟩⟩

/-- Settles O12: by induction on the edges, each of which lets only time go by. -/
theorem responseHeldWhileHostNotReady : Obligations.ResponseHeldWhileHostNotReady := by
  intro s r n hslot hreset hready
  exact ⟨_, runEdges_notReady hslot hreset hready, hslot, rfl, rfl, cmdReady_of_holding hslot,
    fun hlow => ⟨rspValid_of_valid hslot hlow, rspPort_of_valid hslot hlow⟩⟩

/-- Settles O28: the only response that comes into being is the transition's. -/
theorem stepKeepsResponsesWellFormed : Obligations.StepKeepsResponsesWellFormed := by
  intro s t hwf hstep
  have ⟨_, htaken⟩ := hwf
  rw [responsesWf_iff] at hwf ⊢
  obtain hdrop | ⟨i, hadd⟩ | hkeep := step_responsesGiven_cases hstep
  · rwa [hdrop]
  · rw [hadd]
    exact List.forall_mem_append.mpr ⟨hwf, List.forall_mem_singleton.mpr (transition_response_wf _ _)⟩
  · rwa [hkeep]

/-- Settles O34: the state after a transaction is known whole. -/
theorem transactionIsOneTransition : Obligations.TransactionIsOneTransition := fun i s hempty =>
  ⟨s.afterTransaction i, transact_eq hempty i, rfl, rfl, hempty, rfl, rfl, rfl⟩

/-- Settles O37: IDGEN's response is the last one taken, and decides whether a second transaction follows. -/
theorem seedOperationStartsTheStream : Obligations.SeedOperationStartsTheStream := by
  intro x s hempty
  rw [seedOperation, transact_eq hempty]
  refine ⟨fun hlegal => ?_, fun hlarge => ?_⟩
  · have hidgen := transition_idgen_legal s.arch hlegal
    have hfollow : seedFollowUp (s.afterTransaction (.idgen x)) =
        transact (.init (idx (x.extractLsb' 0 56))) (s.afterTransaction (.idgen x)) := by
      simp only [seedFollowUp, State.afterTransaction_taken, hidgen, List.getLast?_concat]
    have hinit := transact_eq (s := s.afterTransaction (.idgen x)) hempty (.init (idx (x.extractLsb' 0 56)))
    exact ⟨_, hfollow.trans hinit, rfl, by simp [hidgen, transition_init]⟩
  · have hidgen := transition_idgen_large s.arch hlarge
    have hfollow : seedFollowUp (s.afterTransaction (.idgen x)) = .next (s.afterTransaction (.idgen x)) := by
      simp only [seedFollowUp, State.afterTransaction_taken, hidgen, List.getLast?_concat]
    exact ⟨_, hfollow, by simp [hidgen], by simp [hidgen]⟩

/-- Settles O2, by evaluating the decoder on the four words. -/
theorem writtenOutWordsDecode : Obligations.WrittenOutWordsDecode := by
  unfold Obligations.WrittenOutWordsDecode
  decide

/-- Settles O5: an idle block accepts what is presented. -/
theorem stepRunsTheAcceptedCommand : Obligations.StepRunsTheAcceptedCommand := fun _ hrst hvalid hempty =>
  ⟨cmdReady_of_empty hempty hrst, step_of_accept (edgeEvent_of_presented hempty hrst hvalid)⟩

/-- Settles O6: `withFetchWord` presents the word to an idle block. -/
theorem fetchedWordIsTheNextCommand : Obligations.FetchedWordIsTheNextCommand := by
  intro s nbits w i h
  obtain ⟨-, hstep⟩ := stepRunsTheAcceptedCommand (s.withFetchWord nbits w) rfl rfl rfl
  rw [hstep, ← decode_ofNat_of_decodeTableWord h]
  rfl

/-- Settles O7: each of the five events of an edge has its next state. -/
theorem stepIsTotal : Obligations.StepIsTotal := exists_step_eq_next

/-- Settles O13: the state after the edge is known whole, and its slot is empty. -/
theorem readyHostTakesTheResponse : Obligations.ReadyHostTakesTheResponse := fun _ _ hslot hrst hready =>
  ⟨_, step_of_ready hslot hrst hready, rfl, rspValid_of_empty rfl, cmdReady_of_empty rfl⟩

/-- Settles O22: the answer is the transition's response, whose status is known exactly. -/
theorem statusesByCommand : Obligations.StatusesByCommand := fun i s =>
  ⟨_, answerOf_exec i s, transition_status_eq_rangeErr_iff s.arch i, transition_status_eq_noContext_iff s.arch i⟩

end Sys2Proof.Proofs

/-! ## Selection tables: OR, and tables that undo each other (R71) -/

namespace Sys2Proof.Machine

/-- `select` copies bits, so it commutes with OR. -/
theorem select_or {n w : Nat} (T : Vector Nat n) (a b : BitVec w) :
    select T (a ||| b) = select T a ||| select T b := by
  apply BitVec.eq_of_getLsbD_eq
  intro i hi
  simp only [select_getLsbD T _ hi, BitVec.getLsbD_or]

/-- Entry by entry, `U` undoes `T`: the position listed at `j + 1` in `T` is where `U` lists `j + 1`. -/
def TableInverts {n : Nat} (U T : Vector Nat n) : Prop :=
  ∀ j : Fin n, 1 ≤ T[j] ∧ U[T[j] - 1]? = some (j.val + 1)

/-- The bit that `T` takes to position `j + 1` stood at position `T[j]`, to which `U` had taken it from position `j + 1`. -/
theorem select_select_of_tableInverts {n : Nat} {U T : Vector Nat n} (h : TableInverts U T) (v : BitVec n) :
    select T (select U v) = v := by
  apply BitVec.eq_of_getLsbD_eq
  intro i hi
  obtain ⟨hpos, hU⟩ := h ⟨n - 1 - i, by omega⟩
  obtain ⟨hlt, hU⟩ := Vector.getElem?_eq_some_iff.mp hU
  simp only [Fin.getElem_fin] at hpos hlt hU
  have hback : n - 1 - (n - T[n - 1 - i]) = T[n - 1 - i] - 1 := by omega
  calc (select T (select U v)).getLsbD i
      = (select U v).getLsbD (n - T[n - 1 - i]) := select_getLsbD T _ hi
    _ = v.getLsbD (n - U[n - 1 - (n - T[n - 1 - i])]) := select_getLsbD U v (by omega)
    _ = v.getLsbD (n - (n - 1 - i + 1)) := by simp only [hback, hU]
    _ = v.getLsbD i := by rw [show n - (n - 1 - i + 1) = i by omega]

theorem fp_tableInverts_ip : TableInverts fp ip := by
  unfold TableInverts
  decide

theorem ip_tableInverts_fp : TableInverts ip fp := by
  unfold TableInverts
  decide

end Sys2Proof.Machine

/-! ## The box outputs in their nibbles (R92) -/

namespace Sys2Proof.Machine

/-- A concatenation in a word of any width: its left part shifted past its right part. -/
theorem setWidth_append_eq_or {n m : Nat} (w : Nat) (a : BitVec n) (b : BitVec m) :
    (a ++ b).setWidth w = (a.setWidth w <<< m) ||| b.setWidth w := by
  apply BitVec.eq_of_getLsbD_eq
  intro i hi
  simp only [BitVec.getLsbD_setWidth, BitVec.getLsbD_append, BitVec.getLsbD_or, BitVec.getLsbD_shiftLeft, hi,
    decide_true, Bool.true_and]
  by_cases h : i < m
  · simp [h]
  · simp [h, BitVec.getLsbD_of_ge b i (by omega), show i - m < w by omega]

/-- The OR of eight nibbles, each in its own place as R92 places them, is their concatenation, the first one on top. -/
theorem or_placed_nibbles (a b c d e f g h : BitVec 4) :
    (a.setWidth 32 <<< 28) ||| (b.setWidth 32 <<< 24) ||| (c.setWidth 32 <<< 20) ||| (d.setWidth 32 <<< 16) |||
        (e.setWidth 32 <<< 12) ||| (f.setWidth 32 <<< 8) ||| (g.setWidth 32 <<< 4) ||| (h.setWidth 32 <<< 0) =
      (a ++ b ++ c ++ d ++ e ++ f ++ g ++ h).setWidth 32 := by
  simp only [setWidth_append_eq_or, BitVec.shiftLeft_or_distrib, ← BitVec.shiftLeft_add, BitVec.shiftLeft_zero]

end Sys2Proof.Machine

/-! ## The statements about the shared tables (40_shared_tables.md) -/

namespace Sys2Proof.Proofs

open Sys2Proof.Machine

/-- Settles O53: `select` commutes with OR, so P is applied to the OR of the placed nibbles, which is their concatenation. -/
theorem partialValuesCombineToPermutedBoxes : Obligations.PartialValuesCombineToPermutedBoxes := by
  intro x1 x2 x3 x4 x5 x6 x7 x8
  have hplaced := or_placed_nibbles (sBox 0 x1) (sBox 1 x2) (sBox 2 x3) (sBox 3 x4) (sBox 4 x5) (sBox 5 x6) (sBox 6 x7)
    (sBox 7 x8)
  rw [BitVec.setWidth_eq] at hplaced
  rw [← hplaced]
  simp only [select_or]
  rfl

/-- Settles O57: each table undoes the other entry by entry, and therefore on values. -/
theorem finalPermutationInvertsInitial : Obligations.FinalPermutationInvertsInitial :=
  ⟨select_select_of_tableInverts ip_tableInverts_fp, select_select_of_tableInverts fp_tableInverts_ip,
    fun j => (fp_tableInverts_ip j).2⟩

/-- Settles O54, by evaluating R92's definition at the 512 indices. -/
theorem spListingMatchesDefinition : Obligations.SpListingMatchesDefinition := by
  unfold Obligations.SpListingMatchesDefinition
  decide +kernel

/-- Settles O55: the entries are the listed ones, so each clause is about the printed values. -/
theorem spMasksAreDisjointFields : Obligations.SpMasksAreDisjointFields := by
  have hfold : ∀ i : Fin 8, (List.finRange 64).foldl (fun m x => m ||| spListings[i][x]) 0#32 = spMasks[i] := by
    decide +kernel
  have hcount : ∀ i : Fin 8, popcount spMasks[i] = 4 := by decide
  have hdisjoint : ∀ i j : Fin 8, i ≠ j → spMasks[i] &&& spMasks[j] = 0#32 := by decide
  have hcover : spMasks.toList.foldl (fun m x => m ||| x) 0#32 = 0xFFFFFFFF#32 := by decide
  refine ⟨fun i => ?_, hcount, hdisjoint, hcover⟩
  simp only [spListingMatchesDefinition i, hfold]

/-- Settles O58, table by table. -/
theorem tablesHaveTheStatedShape : Obligations.TablesHaveTheStatedShape := by
  unfold Obligations.TablesHaveTheStatedShape
  refine ⟨?pc1, ?pc2, ?rot, ?expansion, ?roundPerm, ?sBoxes⟩
  case pc1 => decide
  case pc2 => decide
  case rot => decide
  case expansion => decide
  case roundPerm => decide
  case sBoxes => decide +kernel

end Sys2Proof.Proofs

/-! ## The identifier, bit by bit (R101) -/

namespace Sys2Proof.Machine

theorem idx_getLsbD_byte (s : Seed) (j : Fin 8) {i : Nat} (hi : i < 8) :
    (idx s).getLsbD (56 - 8 * j.val + i) = (identifierByte s j).getLsbD i := by
  simp only [idx, BitVec.getLsbD_append]
  split_ifs <;> congr 2 <;> omega

theorem identifierByte_getLsbD (s : Seed) (j : Fin 8) {i : Nat} (hi : i < 8) :
    (identifierByte s j).getLsbD i = (decide (i ≠ 0) && s.getLsbD (49 - 7 * j.val + (i - 1))) := by
  have hfield : i - 1 < 7 := by omega
  rw [identifierByte, BitVec.getLsbD_append, seedGroup, BitVec.getLsbD_extractLsb']
  by_cases h : i = 0
  · simp [h]
  · simp [h, hfield]

/-- Bit `i` lies in byte `7 - i / 8` at place `i % 8`; the low bit of the byte is forced to 0, the others are the group. -/
theorem idx_getLsbD (s : Seed) {i : Nat} (hi : i < 64) :
    (idx s).getLsbD i = (decide (i % 8 ≠ 0) && s.getLsbD (i - i / 8 - 1)) := by
  have hplace : i = 56 - 8 * (7 - i / 8) + i % 8 := by omega
  have hbyte := idx_getLsbD_byte s ⟨7 - i / 8, by omega⟩ (Nat.mod_lt i (by decide : 8 > 0))
  rw [← hplace, identifierByte_getLsbD s _ (Nat.mod_lt i (by decide : 8 > 0))] at hbyte
  rw [hbyte]
  by_cases hlow : i % 8 = 0
  · simp [hlow]
  · rw [show 49 - 7 * (7 - i / 8) + (i % 8 - 1) = i - i / 8 - 1 by omega]

/-- R101's closed form: where each seed bit goes. -/
theorem idx_getLsbD_seedBit (s : Seed) {k : Nat} (hk : k < 56) : (idx s).getLsbD (k + k / 7 + 1) = s.getLsbD k := by
  have hplace : (k + k / 7 + 1) % 8 ≠ 0 := by omega
  rw [idx_getLsbD s (by omega), show k + k / 7 + 1 - (k + k / 7 + 1) / 8 - 1 = k by omega]
  simp only [hplace, ne_eq, not_false_eq_true, decide_true, Bool.true_and]

theorem idx_getLsbD_parity (s : Seed) {i : Nat} (hi : i < 64) (hparity : i % 8 = 0) : (idx s).getLsbD i = false := by
  simp [-BitVec.getLsbD_eq_getElem, idx_getLsbD s hi, hparity]

/-- No seed bit is lost (R103). -/
theorem idx_injective : Function.Injective idx := by
  intro s t h
  apply BitVec.eq_of_getLsbD_eq
  intro k hk
  rw [← idx_getLsbD_seedBit s hk, ← idx_getLsbD_seedBit t hk, h]

/-- IDX copies bits, so it commutes with exclusive-or. -/
theorem idx_xor (s t : Seed) : idx (s ^^^ t) = idx s ^^^ idx t := by
  apply BitVec.eq_of_getLsbD_eq
  intro i hi
  rw [BitVec.getLsbD_xor, idx_getLsbD _ hi, idx_getLsbD _ hi, idx_getLsbD _ hi, BitVec.getLsbD_xor,
    Bool.and_xor_distrib_left]

end Sys2Proof.Machine

/-! ## Parity positions (R11, R104) -/

namespace Sys2Proof.Machine

theorem parityMask_getLsbD {i : Nat} (hi : i < 64) : parityMask.getLsbD i = decide (i % 8 = 0) := by
  have hall : ∀ j : Fin 64, parityMask.getLsbD j = decide (j.val % 8 = 0) := by decide
  exact hall ⟨i, hi⟩

theorem and_not_parityMask_getLsbD (a : Word64) {i : Nat} (hi : i < 64) :
    (a &&& ~~~parityMask).getLsbD i = (a.getLsbD i && !decide (i % 8 = 0)) := by
  rw [BitVec.getLsbD_and, BitVec.getLsbD_not, parityMask_getLsbD hi, decide_eq_true hi, Bool.true_and]

/-- Two keys agree off the parity positions when they agree at each of the other 56. -/
theorem and_not_parityMask_eq_iff (a b : Word64) :
    a &&& ~~~parityMask = b &&& ~~~parityMask ↔ ∀ i < 64, i % 8 ≠ 0 → a.getLsbD i = b.getLsbD i := by
  constructor
  · intro h i hi hparity
    have hbit := congrArg (·.getLsbD i) h
    simpa only [and_not_parityMask_getLsbD _ hi, hparity, decide_false, Bool.not_false, Bool.and_true] using hbit
  · intro h
    apply BitVec.eq_of_getLsbD_eq
    intro i hi
    rw [and_not_parityMask_getLsbD a hi, and_not_parityMask_getLsbD b hi]
    by_cases hparity : i % 8 = 0
    · simp [hparity]
    · rw [h i hi hparity]

theorem getLsbD_of_and_parityMask_eq_zero {k : Word64} (h : k &&& parityMask = 0#64) {i : Nat} (hi : i < 64)
    (hparity : i % 8 = 0) : k.getLsbD i = false := by
  have hbit := congrArg (·.getLsbD i) h
  simpa [-BitVec.getLsbD_eq_getElem, parityMask_getLsbD hi, hparity] using hbit

theorem idx_and_parityMask (s : Seed) : idx s &&& parityMask = 0#64 := by
  apply BitVec.eq_of_getLsbD_eq
  intro i hi
  rw [BitVec.getLsbD_and, parityMask_getLsbD hi, BitVec.getLsbD_zero]
  by_cases hparity : i % 8 = 0
  · rw [idx_getLsbD_parity s hi hparity, Bool.false_and]
  · rw [decide_eq_false hparity, Bool.and_false]

/-- Identifiers differ off the parity positions if they differ at all. -/
theorem idx_and_not_parityMask_inj {s t : Seed} :
    idx s &&& ~~~parityMask = idx t &&& ~~~parityMask ↔ s = t := by
  refine ⟨fun h => ?_, fun h => by rw [h]⟩
  apply BitVec.eq_of_getLsbD_eq
  intro k hk
  rw [← idx_getLsbD_seedBit s hk, ← idx_getLsbD_seedBit t hk]
  exact (and_not_parityMask_eq_iff _ _).mp h _ (by omega) (by omega)

/-- The inverse of IDX on its image: the 56 bits that are not parity bits (R103). -/
def seedOfIdentifier (k : Word64) : Seed := BitVec.ofFnLE fun j : Fin 56 => k.getLsbD (j.val + j.val / 7 + 1)

theorem idx_seedOfIdentifier {k : Word64} (h : k &&& parityMask = 0#64) : idx (seedOfIdentifier k) = k := by
  apply BitVec.eq_of_getLsbD_eq
  intro i hi
  by_cases hparity : i % 8 = 0
  · rw [idx_getLsbD_parity _ hi hparity, getLsbD_of_and_parityMask_eq_zero h hi hparity]
  · have hk : i - i / 8 - 1 < 56 := by omega
    have hback : i - i / 8 - 1 + (i - i / 8 - 1) / 7 + 1 = i := by omega
    rw [idx_getLsbD _ hi, seedOfIdentifier, BitVec.getLsbD_ofFnLE, dif_pos hk, hback]
    simp only [hparity, ne_eq, not_false_eq_true, decide_true, Bool.true_and]

end Sys2Proof.Machine

/-! ## Hamming distance (R105) -/

namespace Sys2Proof.Machine

/-- The seed bits go, in order, to the positions that are no parity positions. -/
theorem map_seedBit_range :
    (List.range 56).map (fun k => k + k / 7 + 1) = (List.range 64).filter fun i => decide (i % 8 ≠ 0) := by
  decide

/-- The identifier's one bits are the seed's, each at its own position. -/
theorem popcount_idx (s : Seed) : popcount (idx s) = popcount s := by
  have hbits : ∀ i ∈ List.range 64, (idx s).getLsbD i = ((idx s).getLsbD i && decide (i % 8 ≠ 0)) := by
    intro i hi
    rw [idx_getLsbD s (List.mem_range.mp hi), Bool.and_right_comm, Bool.and_self]
  have hseed : ∀ k ∈ List.range 56, (idx s).getLsbD (k + k / 7 + 1) = s.getLsbD k :=
    fun k hk => idx_getLsbD_seedBit s (List.mem_range.mp hk)
  calc popcount (idx s)
      = (List.range 64).countP fun i => (idx s).getLsbD i && decide (i % 8 ≠ 0) :=
        List.countP_congr fun i hi => by rw [← hbits i hi]
    _ = ((List.range 64).filter fun i => decide (i % 8 ≠ 0)).countP (idx s).getLsbD := List.countP_filter.symm
    _ = (List.range 56).countP ((idx s).getLsbD ∘ fun k => k + k / 7 + 1) := by
        rw [← map_seedBit_range, List.countP_map]
    _ = popcount s := List.countP_congr fun k hk => by rw [Function.comp_apply, hseed k hk]

end Sys2Proof.Machine

/-! ## What a selection tells of a word, and what PC1 tells of a key (R71, R75) -/

namespace Sys2Proof.Machine

/-- Two selections are equal exactly when the words agree at every listed position. -/
theorem select_eq_select_iff {n w : Nat} (T : Vector Nat n) (a b : BitVec w) :
    select T a = select T b ↔ ∀ p ∈ T.toList, a.getLsbD (w - p) = b.getLsbD (w - p) := by
  constructor
  · intro h p hp
    obtain ⟨j, hj, rfl⟩ := List.mem_iff_getElem.mp hp
    have hj : j < n := by simpa using hj
    have hbit := congrArg (·.getLsbD (n - 1 - j)) h
    have hback : n - 1 - (n - 1 - j) = j := by omega
    simpa only [select_getLsbD T _ (show n - 1 - j < n by omega), hback, Vector.getElem_toList] using hbit
  · intro h
    apply BitVec.eq_of_getLsbD_eq
    intro i hi
    rw [select_getLsbD T a hi, select_getLsbD T b hi]
    exact h _ (Vector.mem_toList_iff.mpr (Vector.getElem_mem _))

/-- PC1 discards the parity positions and nothing else (R75, R116). -/
theorem select_pc1_eq_iff (a b : Word64) :
    select pc1 a = select pc1 b ↔ a &&& ~~~parityMask = b &&& ~~~parityMask := by
  obtain ⟨hpc1, -⟩ := Proofs.tablesHaveTheStatedShape
  rw [select_eq_select_iff, and_not_parityMask_eq_iff]
  constructor
  · intro h i hi hparity
    have hposition : (63 - i + 1) % 8 ≠ 0 := by omega
    have hbit := h _ ((hpc1 ⟨63 - i, by omega⟩).mpr hposition)
    rwa [show 64 - (63 - i + 1) = i by omega] at hbit
  · intro h p hp
    have hrange : ∀ q ∈ pc1.toList, 1 ≤ q ∧ q ≤ 64 := by decide
    obtain ⟨hlow, hhigh⟩ := hrange p hp
    have hposition : (p - 1 + 1) % 8 ≠ 0 := (hpc1 ⟨p - 1, by omega⟩).mp (by rwa [Nat.sub_add_cancel hlow])
    exact h _ (by omega) (by omega)

end Sys2Proof.Machine

/-! ## UNPACK undoes PACK (R113, R114) -/

namespace Sys2Proof.Machine

/-- The bits of four chunks in a word, byte by byte (R113). -/
theorem packChunks_getLsbD (a b c d : Chunk) {i : Nat} (hi : i < 32) :
    (packChunks a b c d).getLsbD i =
      if i < 8 then d.getLsbD i else if i < 16 then c.getLsbD (i - 8)
      else if i < 24 then b.getLsbD (i - 16) else a.getLsbD (i - 24) := by
  simp only [packChunks, BitVec.getLsbD_or, BitVec.getLsbD_shiftLeft, BitVec.getLsbD_setWidth]
  interval_cases i <;> simp

theorem unpack_packEven_packOdd (K : RawSubkey) : unpack (packEven K) (packOdd K) = K := by
  apply BitVec.eq_of_getLsbD_eq
  intro i hi
  rw [unpack_getLsbD]
  interval_cases i <;> simp [-BitVec.getLsbD_eq_getElem, packEven, packOdd, packChunks_getLsbD, chunk_getLsbD]

theorem packAll_injective : Function.Injective packAll := by
  intro Ks
  induction Ks with
  | nil =>
    intro Ls h
    cases Ls with
    | nil => rfl
    | cons L Ls => cases h
  | cons K Ks ih =>
    intro Ls h
    cases Ls with
    | nil => cases h
    | cons L Ls =>
      simp only [packAll, List.cons.injEq] at h
      obtain ⟨heven, hodd, hrest⟩ := h
      have hhead : K = L := by rw [← unpack_packEven_packOdd K, heven, hodd, unpack_packEven_packOdd]
      rw [hhead, ih hrest]

theorem ks_toList (k : Word64) : (ks k).toList = packAll (rawKeys k) := rfl

/-- No raw subkey is lost in the subkey words (R111, R114). -/
theorem ks_eq_iff_rawKeys_eq (a b : Word64) : ks a = ks b ↔ rawKeys a = rawKeys b := by
  rw [← Vector.toList_inj, ks_toList, ks_toList, packAll_injective.eq_iff]

end Sys2Proof.Machine

/-! ## The raw subkeys of two successive rounds tell the key halves (R112) -/

namespace Sys2Proof.Machine

theorem rotl_injective {w n : Nat} (hn : n < w) : Function.Injective fun v : BitVec w => rotl v n := by
  intro u v h
  apply BitVec.eq_of_getLsbD_eq
  intro i hi
  by_cases hwrap : i + n < w
  · have hbit := congrArg (·.getLsbD (i + n)) h
    simpa [-BitVec.getLsbD_eq_getElem, rotl_getLsbD _ hn hwrap] using hbit
  · have hplace : i + n - w < n := by omega
    have hback : i + n - w + w - n = i := by omega
    have hbit := congrArg (·.getLsbD (i + n - w)) h
    simpa [-BitVec.getLsbD_eq_getElem, rotl_getLsbD _ hn (show i + n - w < w by omega), hplace, hback] using hbit

/-- A rotation of both halves by one moves every bit up by one, but the top bits of the halves. -/
theorem rotl_append_rotl_getLsbD_succ (c d : KeyHalf) {i : Nat} (hi : i + 1 < 56) (htop : i ≠ 27) :
    (rotl c 1 ++ rotl d 1).getLsbD (i + 1) = (c ++ d).getLsbD i := by
  rw [BitVec.getLsbD_append, BitVec.getLsbD_append]
  by_cases hlow : i < 27
  · rw [if_pos (by omega), if_pos (by omega), rotl_getLsbD d (by decide) (by omega), if_neg (by omega),
      Nat.add_sub_cancel]
  · rw [if_neg (by omega), if_neg (by omega), rotl_getLsbD c (by decide) (by omega), if_neg (by omega)]
    rfl

/-- PC2 omits eight positions of the 56, and one round later it reads the bits that stood there. -/
theorem pc2_covers_in_two_rounds :
    ∀ i : Fin 56, 56 - i.val ∈ pc2.toList ∨ i.val + 1 < 56 ∧ i.val ≠ 27 ∧ 56 - (i.val + 1) ∈ pc2.toList := by
  decide

theorem append_inj {n m : Nat} {c c' : BitVec n} {d d' : BitVec m} (h : c ++ d = c' ++ d') : c = c' ∧ d = d' := by
  constructor
  · simpa only [BitVec.extractLsb'_append_eq_left] using congrArg (·.extractLsb' m n) h
  · simpa only [BitVec.extractLsb'_append_eq_right] using congrArg (·.extractLsb' 0 m) h

theorem halves_eq_of_select_pc2_eq {c d c' d' : KeyHalf} (hnow : select pc2 (c ++ d) = select pc2 (c' ++ d'))
    (hnext : select pc2 (rotl c 1 ++ rotl d 1) = select pc2 (rotl c' 1 ++ rotl d' 1)) : c = c' ∧ d = d' := by
  refine append_inj ?_
  rw [select_eq_select_iff] at hnow hnext
  apply BitVec.eq_of_getLsbD_eq
  intro i hi
  obtain hmem | ⟨hsucc, htop, hmem⟩ := pc2_covers_in_two_rounds ⟨i, hi⟩
  · have hbit := hnow _ hmem
    rwa [show 28 + 28 - (56 - i) = i by omega] at hbit
  · have hbit := hnext _ hmem
    rwa [show 28 + 28 - (56 - (i + 1)) = i + 1 by omega, rotl_append_rotl_getLsbD_succ c d hsucc htop,
      rotl_append_rotl_getLsbD_succ c' d' hsucc htop] at hbit

/-- `C_0 || D_0` is the selection by PC1. -/
theorem keyHalfC_append_keyHalfD (k : Word64) : keyHalfC k ++ keyHalfD k = select pc1 k := by
  rw [keyHalfC, keyHalfD, BitVec.extractLsb'_append_extractLsb'_eq_extractLsb' (start₁ := 0) (len₁ := 28) rfl]
  exact BitVec.extractLsb'_eq_self

/-- The first two rounds rotate by one each (R77), so `K_1` and `K_2` tell `C_1 || D_1`, and with it `C_0 || D_0`. -/
theorem select_pc1_eq_of_rawKeys_eq {a b : Word64} (h : rawKeys a = rawKeys b) : select pc1 a = select pc1 b := by
  simp only [rawKeys, rot, rawKeysFrom, List.cons.injEq] at h
  obtain ⟨hfirst, hsecond, -⟩ := h
  obtain ⟨hC, hD⟩ := halves_eq_of_select_pc2_eq hfirst hsecond
  have hC0 : keyHalfC a = keyHalfC b := rotl_injective (by decide : 1 < 28) hC
  have hD0 : keyHalfD a = keyHalfD b := rotl_injective (by decide : 1 < 28) hD
  rw [← keyHalfC_append_keyHalfD a, ← keyHalfC_append_keyHalfD b, hC0, hD0]

theorem ks_eq_iff_select_pc1_eq (a b : Word64) : ks a = ks b ↔ select pc1 a = select pc1 b := by
  rw [ks_eq_iff_rawKeys_eq]
  refine ⟨select_pc1_eq_of_rawKeys_eq, fun h => ?_⟩
  simp only [rawKeys, keyHalfC, keyHalfD, h]

/-- KS reads the 56 positions that are no parity positions, and every one of them matters (R116, R197). -/
theorem ks_eq_iff (a b : Word64) : ks a = ks b ↔ a &&& ~~~parityMask = b &&& ~~~parityMask :=
  (ks_eq_iff_select_pc1_eq a b).trans (select_pc1_eq_iff a b)

/-- `2n` and `2n + 1` differ in bit 0 only, which is a parity position. -/
theorem ks_ofNat_two_mul (n : Nat) : ks (BitVec.ofNat 64 (2 * n)) = ks (BitVec.ofNat 64 (2 * n + 1)) := by
  rw [ks_eq_iff, and_not_parityMask_eq_iff]
  intro i hi hparity
  obtain ⟨i, rfl⟩ := Nat.exists_eq_succ_of_ne_zero (show i ≠ 0 by omega)
  rw [BitVec.getLsbD_ofNat, BitVec.getLsbD_ofNat, Nat.testBit_succ, Nat.testBit_succ,
    show (2 * n + 1) / 2 = 2 * n / 2 by omega]

end Sys2Proof.Machine

/-! ## The statements about the identifier expansion (41_identifier.md) -/

namespace Sys2Proof.Proofs

open Sys2Proof.Machine

/-- Settles O14: IDGEN is its transition, which writes no state and answers with IDX; the bits are R101's closed form. -/
theorem idgenOfLegalSeedCompletes : Obligations.IdgenOfLegalSeedCompletes := by
  intro seed s hlegal
  refine ⟨idx (seed.extractLsb' 0 56), ?_, rfl, fun k hk => ?_, fun j hj => ?_⟩
  · rw [exec_eq, transition_idgen_legal s.arch hlegal]
    rfl
  · rw [idx_getLsbD_seedBit _ hk, BitVec.getLsbD_extractLsb', decide_eq_true hk, Bool.true_and, Nat.zero_add]
  · exact idx_getLsbD_parity _ (by omega) (Nat.mul_mod_right 8 j)

/-- Settles O38: bit `k` of the seed stands at `k + k / 7 + 1` of the identifier, and `k / 7` is one number in each group. -/
theorem identifiersAreInjective : Obligations.IdentifiersAreInjective := by
  refine ⟨fun s t hne h => hne (idx_injective h), fun s j => ?_⟩
  apply BitVec.eq_of_getLsbD_eq
  intro i hi
  have hplace : 49 - 7 * j.val + i + (49 - 7 * j.val + i) / 7 + 1 = 57 - 8 * j.val + i := by omega
  rw [BitVec.getLsbD_extractLsb', BitVec.getLsbD_extractLsb', ← hplace, idx_getLsbD_seedBit s (by omega)]

/-- Settles O39: the inverse of IDX on its image gives the seed, and PC1 discards the parity positions only. -/
theorem identifierImage : Obligations.IdentifierImage := by
  refine ⟨idx_and_parityMask, fun k hk => ?_, fun s t hne h => ?_, ks_ofNat_two_mul⟩
  · have hseed := idx_seedOfIdentifier hk
    exact ⟨seedOfIdentifier k, hseed, fun t ht => idx_injective (ht.trans hseed.symm)⟩
  · exact hne (idx_and_not_parityMask_inj.mp ((select_pc1_eq_iff _ _).mp h))

/-- Settles O40: the difference of identifiers is the identifier of the difference, and IDX keeps the number of one bits. -/
theorem identifiersPreserveHammingDistance : Obligations.IdentifiersPreserveHammingDistance := by
  have hdistance (s t : Seed) : popcount (idx s ^^^ idx t) = popcount (s ^^^ t) := by rw [← idx_xor, popcount_idx]
  have hexample : popcount (0#56 ^^^ 1#56) = 1 := by decide
  exact ⟨hdistance, (hdistance 0#56 1#56).trans hexample⟩

/-- Settles O41: subkeys tell keys apart off the parity positions, where distinct seeds have distinct identifiers. -/
theorem subkeysTellEffectiveKeysApart : Obligations.SubkeysTellEffectiveKeysApart :=
  ⟨fun _ _ hne h => hne (idx_and_not_parityMask_inj.mp ((ks_eq_iff _ _).mp h)), ks_eq_iff⟩

end Sys2Proof.Proofs

/-! ## Rotations add up, and the rotations of the key halves add up to the totals of R112 -/

namespace Sys2Proof.Machine

theorem rotl_zero {w : Nat} (v : BitVec w) : rotl v 0 = v := by
  rw [rotl, BitVec.shiftLeft_zero, Nat.sub_zero, BitVec.ushiftRight_eq_zero le_rfl, BitVec.or_zero]

/-- A rotation by the whole width moves nothing. -/
theorem rotl_width {w : Nat} (v : BitVec w) : rotl v w = v := by
  simp [rotl]

/-- A rotation up to the whole width, bit by bit. -/
theorem rotl_getLsbD_of_le {w n : Nat} (v : BitVec w) (hn : n ≤ w) {i : Nat} (hi : i < w) :
    (rotl v n).getLsbD i = v.getLsbD (if i < n then i + w - n else i - n) := by
  obtain hlt | rfl := hn.lt_or_eq
  · exact rotl_getLsbD v hlt hi
  · rw [rotl_width, if_pos hi, Nat.add_sub_cancel]

theorem rotl_rotl {w n m : Nat} (v : BitVec w) (h : n + m ≤ w) : rotl (rotl v n) m = rotl v (n + m) := by
  apply BitVec.eq_of_getLsbD_eq
  intro i hi
  have hback : (if i < m then i + w - m else i - m) < w := by split <;> omega
  rw [rotl_getLsbD_of_le _ (by omega) hi, rotl_getLsbD_of_le v (by omega) hback, rotl_getLsbD_of_le v h hi]
  congr 1
  split_ifs <;> omega

/-- How far the halves stand from their start after each round, when they begin at `n`. -/
def rotationTotals (n : Nat) : List Nat → List Nat
  | [] => []
  | a :: amounts => (n + a) :: rotationTotals (n + a) amounts

/-- R112's list of totals. -/
theorem rotationTotals_rot :
    rotationTotals 0 rot = [1, 2, 4, 6, 8, 10, 12, 14, 15, 17, 19, 21, 23, 25, 27, 28] := rfl

/-- The rounds select from the first halves, rotated by the totals. -/
theorem rawKeysFrom_eq_map (c d : KeyHalf) {n : Nat} {amounts : List Nat} (h : n + amounts.sum ≤ 28) :
    rawKeysFrom (rotl c n) (rotl d n) amounts =
      (rotationTotals n amounts).map fun m => select pc2 (rotl c m ++ rotl d m) := by
  induction amounts generalizing n with
  | nil => rfl
  | cons a amounts ih =>
    rw [List.sum_cons] at h
    rw [rawKeysFrom, rotl_rotl c (by omega), rotl_rotl d (by omega), ih (by omega), rotationTotals, List.map_cons]

theorem rawKeys_eq_map (k : Word64) :
    rawKeys k = (rotationTotals 0 rot).map fun m => select pc2 (rotl (keyHalfC k) m ++ rotl (keyHalfD k) m) := by
  obtain ⟨-, -, hsum, -⟩ := Proofs.tablesHaveTheStatedShape
  have hrounds := rawKeysFrom_eq_map (keyHalfC k) (keyHalfD k) (n := 0) (amounts := rot) (by omega)
  rwa [rotl_zero, rotl_zero] at hrounds

/-- How far both halves are rotated when `K_{r+1}` is selected. -/
def roundTotal (r : Fin 16) : Nat := (rotationTotals 0 rot)[r.val]'r.isLt

theorem roundTotal_le (r : Fin 16) : roundTotal r ≤ 28 := by
  revert r
  decide

theorem rawKeys_length (k : Word64) : (rawKeys k).length = 16 := rawKeysFrom_length _ _ _

theorem lt_rawKeys_length (k : Word64) (r : Fin 16) : r.val < (rawKeys k).length := by
  rw [rawKeys_length]
  exact r.isLt

theorem rawKeys_getElem (k : Word64) (r : Fin 16) :
    (rawKeys k)[r.val]'(lt_rawKeys_length k r) =
      select pc2 (rotl (keyHalfC k) (roundTotal r) ++ rotl (keyHalfD k) (roundTotal r)) := by
  simp only [rawKeys_eq_map, List.getElem_map]
  rfl

/-- The upper half of a raw subkey comes from the left key half: the first 24 entries of PC2 are at most 28 (R76). -/
theorem select_pc2_upper (c d d' : KeyHalf) :
    (select pc2 (c ++ d)).extractLsb' 24 24 = (select pc2 (c ++ d')).extractLsb' 24 24 := by
  have hentry : ∀ i : Fin 24, pc2[23 - i.val] ≤ 28 := by decide
  apply BitVec.eq_of_getLsbD_eq
  intro i hi
  have hposition : pc2[23 - i] ≤ 28 := hentry ⟨i, hi⟩
  have hleft : ¬ 28 + 28 - pc2[23 - i] < 28 := by omega
  have hplace : 48 - 1 - (24 + i) = 23 - i := by omega
  simp only [BitVec.getLsbD_extractLsb', select_getLsbD pc2 _ (show 24 + i < 48 by omega), hplace,
    BitVec.getLsbD_append, hleft, if_false]

/-- The lower half of a raw subkey comes from the right key half: the last 24 entries of PC2 are above 28 (R76). -/
theorem select_pc2_lower (c c' d : KeyHalf) :
    (select pc2 (c ++ d)).extractLsb' 0 24 = (select pc2 (c' ++ d)).extractLsb' 0 24 := by
  have hentry : ∀ i : Fin 24, 28 < pc2[47 - i.val] := by decide
  apply BitVec.eq_of_getLsbD_eq
  intro i hi
  have hposition : 28 < pc2[47 - i] := hentry ⟨i, hi⟩
  have hright : 28 + 28 - pc2[47 - i] < 28 := by omega
  have hplace : 48 - 1 - i = 47 - i := by omega
  simp only [BitVec.getLsbD_extractLsb', Nat.zero_add, select_getLsbD pc2 _ (show i < 48 by omega), hplace,
    BitVec.getLsbD_append, hright, if_true]

end Sys2Proof.Machine

/-! ## The fields of packed words, and what UNPACK reads of them (R113, R114) -/

namespace Sys2Proof.Machine

/-- Each chunk stands in its own byte. -/
theorem packChunks_fields (a b c d : Chunk) :
    (packChunks a b c d).extractLsb' 24 6 = a ∧ (packChunks a b c d).extractLsb' 16 6 = b ∧
      (packChunks a b c d).extractLsb' 8 6 = c ∧ (packChunks a b c d).extractLsb' 0 6 = d := by
  refine ⟨?_, ?_, ?_, ?_⟩ <;>
  · apply BitVec.eq_of_getLsbD_eq
    intro i hi
    interval_cases i <;> simp [-BitVec.getLsbD_eq_getElem, packChunks_getLsbD]

theorem padMask_getLsbD {i : Nat} (hi : i < 32) : padMask.getLsbD i = decide (6 ≤ i % 8) := by
  have hall : ∀ j : Fin 32, padMask.getLsbD j = decide (6 ≤ j.val % 8) := by decide
  exact hall ⟨i, hi⟩

/-- Words that agree off the padding agree in every chunk field. -/
theorem field_eq_of_and_not_padMask_eq {a b : Word32} (h : a &&& ~~~padMask = b &&& ~~~padMask) {n : Nat}
    (hn : n % 8 = 0 ∧ n ≤ 24) : a.extractLsb' n 6 = b.extractLsb' n 6 := by
  obtain ⟨hbyte, hlow⟩ := hn
  apply BitVec.eq_of_getLsbD_eq
  intro i hi
  have hbit := congrArg (·.getLsbD (n + i)) h
  have hplace : n + i < 32 := by omega
  have hfield : ¬ 6 ≤ (n + i) % 8 := by omega
  simpa only [BitVec.getLsbD_and, BitVec.getLsbD_not, padMask_getLsbD hplace, hfield, hplace, decide_true, decide_false,
    Bool.not_false, Bool.and_true, BitVec.getLsbD_extractLsb', hi, Bool.true_and] using hbit

/-- UNPACK reads the words through their chunk fields only. -/
theorem unpack_eq_of_and_not_padMask_eq {a b a' b' : Word32} (ha : a &&& ~~~padMask = a' &&& ~~~padMask)
    (hb : b &&& ~~~padMask = b' &&& ~~~padMask) : unpack a b = unpack a' b' := by
  simp only [unpack, field_eq_of_and_not_padMask_eq ha (n := 24) (by decide),
    field_eq_of_and_not_padMask_eq ha (n := 16) (by decide), field_eq_of_and_not_padMask_eq ha (n := 8) (by decide),
    field_eq_of_and_not_padMask_eq ha (n := 0) (by decide), field_eq_of_and_not_padMask_eq hb (n := 24) (by decide),
    field_eq_of_and_not_padMask_eq hb (n := 16) (by decide), field_eq_of_and_not_padMask_eq hb (n := 8) (by decide),
    field_eq_of_and_not_padMask_eq hb (n := 0) (by decide)]

end Sys2Proof.Machine

/-! ## The words of KS, round by round (R111, R114) -/

namespace Sys2Proof.Machine

theorem packAll_getElem_even {Ks : List RawSubkey} {r : Nat} (hr : r < Ks.length) :
    (packAll Ks)[2 * r]'(by rw [packAll_length]; omega) = packEven Ks[r] := by
  induction Ks generalizing r with
  | nil => cases hr
  | cons K Ks ih =>
    cases r with
    | zero => rfl
    | succ r => exact ih (Nat.lt_of_succ_lt_succ hr)

theorem packAll_getElem_odd {Ks : List RawSubkey} {r : Nat} (hr : r < Ks.length) :
    (packAll Ks)[2 * r + 1]'(by rw [packAll_length]; omega) = packOdd Ks[r] := by
  induction Ks generalizing r with
  | nil => cases hr
  | cons K Ks ih =>
    cases r with
    | zero => rfl
    | succ r => exact ih (Nat.lt_of_succ_lt_succ hr)

theorem ks_getElem (k : Word64) {i : Nat} (hi : i < 32) :
    (ks k)[i] = (packAll (rawKeys k))[i]'(by rwa [packAll_rawKeys_length]) := by
  simp only [ks, Vector.getElem_mk, List.getElem_toArray]

theorem ks_getElem_even (k : Word64) (r : Fin 16) :
    (ks k)[2 * r.val] = packEven ((rawKeys k)[r.val]'(lt_rawKeys_length k r)) := by
  rw [ks_getElem, packAll_getElem_even]

theorem ks_getElem_odd (k : Word64) (r : Fin 16) :
    (ks k)[2 * r.val + 1] = packOdd ((rawKeys k)[r.val]'(lt_rawKeys_length k r)) := by
  rw [ks_getElem, packAll_getElem_odd]

/-- The raw subkeys read from the words of KS are those the words were packed from. -/
theorem roundKey_ks (k : Word64) (r : Fin 16) :
    roundKey (ks k) r = (rawKeys k)[r.val]'(lt_rawKeys_length k r) := by
  rw [roundKey, ks_getElem_even, ks_getElem_odd, unpack_packEven_packOdd]

theorem roundKeys_ks (k : Word64) : roundKeys (ks k) = rawKeys k := by
  apply List.ext_getElem
  · rw [roundKeys, List.length_map, List.length_finRange, rawKeys_length]
  · intro r hr _
    simp only [roundKeys, List.getElem_map, roundKey_ks, List.getElem_finRange]
    rfl

end Sys2Proof.Machine

/-! ## Where each subkey bit comes from (R112, R118) -/

namespace Sys2Proof.Machine

theorem pc2_place_lt : ∀ i : Fin 48, 56 - pc2[47 - i.val] < 56 := by decide

/-- The bit of `C_r || D_r` that PC2 copies to bit `i` of the raw subkey. -/
def pc2Source (i : Fin 48) : Fin 56 := ⟨56 - pc2[47 - i.val], pc2_place_lt i⟩

theorem pc2Source_injective : Function.Injective pc2Source := by decide

theorem select_pc2_getLsbD (v : BitVec 56) (i : Fin 48) : (select pc2 v).getLsbD i = v.getLsbD (pc2Source i) :=
  select_getLsbD pc2 v i.isLt

theorem pc1_place_lt : ∀ i : Fin 56, 64 - pc1[55 - i.val] < 64 := by decide

/-- The bit of the key that PC1 copies to bit `i` of `C_0 || D_0`. -/
def pc1Source (i : Fin 56) : Fin 64 := ⟨64 - pc1[55 - i.val], pc1_place_lt i⟩

theorem pc1Source_injective : Function.Injective pc1Source := by decide

/-- PC1 copies no parity position (R75). -/
theorem pc1Source_not_parity : ∀ i : Fin 56, (pc1Source i).val % 8 ≠ 0 := by decide

theorem select_pc1_getLsbD (k : Word64) (i : Fin 56) : (select pc1 k).getLsbD i = k.getLsbD (pc1Source i) :=
  select_getLsbD pc1 k i.isLt

/-- The bit of a key half that a rotation by `n` takes to bit `j`. -/
def halfSource (n j : Nat) : Nat := if j < n then j + 28 - n else j - n

/-- The bit of `C || D` that a rotation of both halves by `n` takes to bit `j`: the halves never mix. -/
def halvesSource (n j : Nat) : Nat := if j < 28 then halfSource n j else halfSource n (j - 28) + 28

theorem halfSource_lt {n j : Nat} (hn : n ≤ 28) (hj : j < 28) : halfSource n j < 28 := by
  unfold halfSource
  split <;> omega

theorem halfSource_inj {n i j : Nat} (hn : n ≤ 28) (hi : i < 28) (hj : j < 28) (h : halfSource n i = halfSource n j) :
    i = j := by
  unfold halfSource at h
  split_ifs at h <;> omega

theorem halvesSource_lt {n j : Nat} (hn : n ≤ 28) (hj : j < 56) : halvesSource n j < 56 := by
  unfold halvesSource
  split
  next hlow => exact (halfSource_lt hn hlow).trans (by decide)
  next hhigh => exact Nat.add_lt_add_right (halfSource_lt hn (by omega)) 28

theorem halvesSource_inj {n i j : Nat} (hn : n ≤ 28) (hi : i < 56) (hj : j < 56)
    (h : halvesSource n i = halvesSource n j) : i = j := by
  unfold halvesSource at h
  split_ifs at h with hilow hjlow hjlow
  · exact halfSource_inj hn hilow hjlow h
  · have := halfSource_lt hn hilow
    omega
  · have := halfSource_lt hn hjlow
    omega
  · have := halfSource_inj hn (by omega) (by omega) (Nat.add_right_cancel h)
    omega

theorem rotl_append_rotl_getLsbD (c d : KeyHalf) {n : Nat} (hn : n ≤ 28) {j : Nat} (hj : j < 56) :
    (rotl c n ++ rotl d n).getLsbD j = (c ++ d).getLsbD (halvesSource n j) := by
  rw [BitVec.getLsbD_append, BitVec.getLsbD_append, halvesSource]
  by_cases hlow : j < 28
  · rw [if_pos hlow, if_pos hlow, if_pos (halfSource_lt hn hlow), rotl_getLsbD_of_le d hn hlow, halfSource]
  · have hhigh : j - 28 < 28 := by omega
    rw [if_neg hlow, if_neg hlow, if_neg (by omega), rotl_getLsbD_of_le c hn hhigh, Nat.add_sub_cancel, halfSource]

/-- The bit of `C_0 || D_0` that stands at bit `j` of the rotated halves of a round. -/
def roundSource (r : Fin 16) (j : Fin 56) : Fin 56 :=
  ⟨halvesSource (roundTotal r) j, halvesSource_lt (roundTotal_le r) j.isLt⟩

theorem roundSource_injective (r : Fin 16) : Function.Injective (roundSource r) := by
  intro i j h
  exact Fin.ext (halvesSource_inj (roundTotal_le r) i.isLt j.isLt (Fin.val_eq_of_eq h))

/-- The key bit that bit `i` of `K_{r+1}` is a copy of. -/
def subkeySource (r : Fin 16) (i : Fin 48) : Fin 64 := pc1Source (roundSource r (pc2Source i))

theorem subkeySource_injective (r : Fin 16) : Function.Injective (subkeySource r) :=
  pc1Source_injective.comp ((roundSource_injective r).comp pc2Source_injective)

/-- Each bit of each raw subkey is one bit of the key. -/
theorem roundKey_ks_getLsbD (k : Word64) (r : Fin 16) (i : Fin 48) :
    (roundKey (ks k) r).getLsbD i = k.getLsbD (subkeySource r i) := by
  have hhalves := rotl_append_rotl_getLsbD (keyHalfC k) (keyHalfD k) (roundTotal_le r) (pc2Source i).isLt
  calc (roundKey (ks k) r).getLsbD i
      = (rotl (keyHalfC k) (roundTotal r) ++ rotl (keyHalfD k) (roundTotal r)).getLsbD (pc2Source i) := by
        rw [roundKey_ks, rawKeys_getElem]
        exact select_pc2_getLsbD _ i
    _ = (select pc1 k).getLsbD (roundSource r (pc2Source i)) := by rw [hhalves, keyHalfC_append_keyHalfD]; rfl
    _ = k.getLsbD (subkeySource r i) := select_pc1_getLsbD k _

/-- The second round uses a key bit that the first one omits. -/
theorem range_subkeySource_ne : Set.range (subkeySource 0) ≠ Set.range (subkeySource 1) := by
  have homitted : ∀ j, subkeySource 0 j ≠ subkeySource 1 4 := by decide
  intro h
  obtain ⟨j, hj⟩ : subkeySource 1 4 ∈ Set.range (subkeySource 0) := h ▸ Set.mem_range_self 4
  exact homitted j hj

end Sys2Proof.Machine

/-! ## KS is linear over exclusive-or (R118) -/

namespace Sys2Proof.Machine

/-- A raw subkey copies key bits, so it commutes with exclusive-or. -/
theorem roundKey_ks_xor (a b : Word64) (r : Fin 16) :
    roundKey (ks (a ^^^ b)) r = roundKey (ks a) r ^^^ roundKey (ks b) r := by
  apply BitVec.eq_of_getLsbD_eq
  intro i hi
  have hbit (k : Word64) := roundKey_ks_getLsbD k r ⟨i, hi⟩
  rw [BitVec.getLsbD_xor, hbit, hbit, hbit, BitVec.getLsbD_xor]

theorem packChunks_xor (a b c d a' b' c' d' : Chunk) :
    packChunks (a ^^^ a') (b ^^^ b') (c ^^^ c') (d ^^^ d') = packChunks a b c d ^^^ packChunks a' b' c' d' := by
  apply BitVec.eq_of_getLsbD_eq
  intro i hi
  simp only [BitVec.getLsbD_xor, packChunks_getLsbD _ _ _ _ hi]
  split_ifs <;> rfl

theorem packEven_xor (K L : RawSubkey) : packEven (K ^^^ L) = packEven K ^^^ packEven L := by
  simp only [packEven, chunk_xor, packChunks_xor]

theorem packOdd_xor (K L : RawSubkey) : packOdd (K ^^^ L) = packOdd K ^^^ packOdd L := by
  simp only [packOdd, chunk_xor, packChunks_xor]

/-- Every subkey word is one of the two words of a round (R111). -/
theorem exists_round_of_word (i : Fin 32) :
    ∃ r : Fin 16, i = ⟨2 * r.val, by omega⟩ ∨ i = ⟨2 * r.val + 1, by omega⟩ := by
  refine ⟨⟨i.val / 2, by omega⟩, ?_⟩
  simp only [Fin.ext_iff]
  omega

theorem ks_xor (a b : Word64) (i : Fin 32) : (ks (a ^^^ b))[i] = (ks a)[i] ^^^ (ks b)[i] := by
  obtain ⟨r, rfl | rfl⟩ := exists_round_of_word i
  · simp only [Fin.getElem_fin, ks_getElem_even, ← roundKey_ks, roundKey_ks_xor, packEven_xor]
  · simp only [Fin.getElem_fin, ks_getElem_odd, ← roundKey_ks, roundKey_ks_xor, packOdd_xor]

/-- The subkey bits of the key of ones are ones. -/
theorem roundKey_ks_allOnes (r : Fin 16) : roundKey (ks (BitVec.allOnes 64)) r = BitVec.allOnes 48 := by
  apply BitVec.eq_of_getLsbD_eq
  intro i hi
  have hbit := roundKey_ks_getLsbD (BitVec.allOnes 64) r ⟨i, hi⟩
  rw [hbit, BitVec.getLsbD_allOnes, BitVec.getLsbD_allOnes, decide_eq_true hi, decide_eq_true (subkeySource r _).isLt]

/-- R115: the key of ones gives words of ones, but for the padding. -/
theorem ks_allOnes (i : Fin 32) : (ks (BitVec.allOnes 64))[i] = 0x3F3F3F3F#32 := by
  obtain ⟨r, rfl | rfl⟩ := exists_round_of_word i
  · simp only [Fin.getElem_fin, ks_getElem_even, ← roundKey_ks, roundKey_ks_allOnes]
    decide
  · simp only [Fin.getElem_fin, ks_getElem_odd, ← roundKey_ks, roundKey_ks_allOnes]
    decide

/-- Complementing a key is exclusive-or with the key of ones. -/
theorem ks_not (k : Word64) (i : Fin 32) : (ks (~~~k))[i] = (ks k)[i] ^^^ 0x3F3F3F3F#32 := by
  rw [← BitVec.xor_allOnes, ks_xor, ks_allOnes]

/-- Linearity leaves the zero key no one bits (R115). -/
theorem ks_zero : ks 0#64 = Vector.replicate 32 0#32 := by
  apply Vector.ext
  intro i hi
  have hself := ks_xor 0#64 0#64 ⟨i, hi⟩
  rw [BitVec.xor_self, BitVec.xor_self] at hself
  rw [Vector.getElem_replicate]
  exact hself

end Sys2Proof.Machine

/-! ## Differences of keys off the parity positions (R116) -/

namespace Sys2Proof.Machine

theorem and_not_parityMask_eq_iff_xor (a b : Word64) :
    a &&& ~~~parityMask = b &&& ~~~parityMask ↔ (a ^^^ b) &&& ~~~parityMask = 0#64 := by
  rw [← BitVec.zero_and (x := ~~~parityMask), and_not_parityMask_eq_iff, and_not_parityMask_eq_iff]
  simp only [BitVec.getLsbD_xor, BitVec.getLsbD_zero, bne_eq_false_iff_eq]

end Sys2Proof.Machine

/-! ## The statements about the key schedule (42_key_schedule.md) -/

namespace Sys2Proof.Proofs

open Sys2Proof.Machine

/-- Settles O42: the rounds select from halves rotated by the totals, and each half of PC2 reads one key half. -/
theorem rawSubkeysOfAccumulatedRotations : Obligations.RawSubkeysOfAccumulatedRotations :=
  ⟨fun k => rotationTotals_rot ▸ rawKeys_eq_map k, rotl_width,
    fun c d c' d' => ⟨select_pc2_upper c d d', select_pc2_lower c c' d⟩⟩

/-- Settles O43: four chunks in a word, each in its own byte, for the even and for the odd word. -/
theorem packedWordLayout : Obligations.PackedWordLayout := by
  intro K
  obtain ⟨e24, e16, e8, e0⟩ := packChunks_fields (chunk K 0) (chunk K 2) (chunk K 4) (chunk K 6)
  obtain ⟨o24, o16, o8, o0⟩ := packChunks_fields (chunk K 1) (chunk K 3) (chunk K 5) (chunk K 7)
  exact ⟨e24, o24, e16, o16, e8, o8, e0, o0, packChunks_and_padMask .., packChunks_and_padMask ..⟩

/-- Settles O44: UNPACK reads the chunk fields, where PACK put the chunks. -/
theorem unpackUndoesPack : Obligations.UnpackUndoesPack :=
  ⟨unpack_packEven_packOdd, fun _ _ _ _ => unpack_eq_of_and_not_padMask_eq, roundKeys_ks⟩

/-- Settles O45: PC1 discards the parity positions and nothing else, and the key of the example is the zero key off them. -/
theorem parityPositionsIgnored : Obligations.ParityPositionsIgnored := by
  refine ⟨fun k m hm => ?_, ?_, fun k k' hdiffer heq => ?_⟩
  · rwa [ks_eq_iff, and_not_parityMask_eq_iff_xor, BitVec.xor_comm k m, BitVec.xor_assoc, BitVec.xor_self,
      BitVec.xor_zero]
  · rw [← ks_zero, ks_eq_iff]
    decide
  · exact hdiffer ((and_not_parityMask_eq_iff_xor k k').mp ((select_pc1_eq_iff k k').mp heq))

/-- Settles O46: the source of a subkey bit is its way back through PC2, the rotation of its half, and PC1, each injective. -/
theorem subkeyBitsAreKeyBits : Obligations.SubkeyBitsAreKeyBits :=
  ⟨subkeySource, fun r i => pc1Source_not_parity (roundSource r (pc2Source i)), subkeySource_injective,
    ⟨0, 1, range_subkeySource_ne⟩, roundKey_ks_getLsbD⟩

/-- Settles O47: subkey bits are key bits, and PACK moves bits without combining them. -/
theorem keyScheduleIsLinear : Obligations.KeyScheduleIsLinear := ⟨ks_xor, ks_not⟩

/-- Settles O16: INIT is its transition. -/
theorem initCompletes : Obligations.InitCompletes := by
  intro k s
  rw [exec_eq, transition_init]
  rfl

/-- Settles O24: INIT's transition does not depend on the state before it, and its response replaces the one in flight. -/
theorem secondInitReplacesTheContext : Obligations.SecondInitReplacesTheContext := by
  intro a b s t h
  rw [initCompletes] at h
  cases h
  rw [initCompletes, initCompletes]

end Sys2Proof.Proofs

/-! ## Halves and blocks: the permutations around the network, and exchanged halves (R131, R134) -/

namespace Sys2Proof.Machine

/-- The halves in the other order, as the end of the network reads them (R134). -/
def Halves.exchanged (h : Halves) : Halves := ⟨h.R, h.L⟩

theorem initialHalves_append (b : Word64) : (initialHalves b).L ++ (initialHalves b).R = select ip b := by
  rw [initialHalves, BitVec.extractLsb'_append_extractLsb'_eq_extractLsb' (start₁ := 0) (len₁ := 32) rfl]
  exact BitVec.extractLsb'_eq_self

theorem finalBlock_exchanged_initialHalves (b : Word64) : finalBlock (initialHalves b).exchanged = b := by
  rw [finalBlock, Halves.exchanged, initialHalves_append, select_select_of_tableInverts ip_tableInverts_fp]

theorem initialHalves_finalBlock (h : Halves) : initialHalves (finalBlock h) = h.exchanged := by
  rw [initialHalves, finalBlock, select_select_of_tableInverts fp_tableInverts_ip, BitVec.extractLsb'_append_eq_left,
    BitVec.extractLsb'_append_eq_right, Halves.exchanged]

theorem initialHalves_bijective : Function.Bijective initialHalves :=
  Function.bijective_iff_has_inverse.mpr
    ⟨fun h => finalBlock h.exchanged, finalBlock_exchanged_initialHalves, fun h => initialHalves_finalBlock h.exchanged⟩

theorem finalBlock_bijective : Function.Bijective finalBlock :=
  Function.bijective_iff_has_inverse.mpr
    ⟨fun b => (initialHalves b).exchanged, fun h => congrArg Halves.exchanged (initialHalves_finalBlock h),
      finalBlock_exchanged_initialHalves⟩

end Sys2Proof.Machine

/-! ## Rounds can be undone (R136) -/

namespace Sys2Proof.Machine

/-- What undoes a round: R136's `(L', R') -> (R' ^ F(L', K), L')`. -/
def feistelUnround (h : Halves) (K : RawSubkey) : Halves := ⟨h.R ^^^ roundF h.L K, h.L⟩

theorem feistelUnround_feistelRound (h : Halves) (K : RawSubkey) : feistelUnround (feistelRound h K) K = h := by
  simp only [feistelUnround, feistelRound, BitVec.xor_assoc, BitVec.xor_self, BitVec.xor_zero]

theorem feistelRound_feistelUnround (h : Halves) (K : RawSubkey) : feistelRound (feistelUnround h K) K = h := by
  simp only [feistelUnround, feistelRound, BitVec.xor_assoc, BitVec.xor_self, BitVec.xor_zero]

theorem feistelRound_bijective (K : RawSubkey) : Function.Bijective (feistelRound · K) :=
  Function.bijective_iff_has_inverse.mpr
    ⟨(feistelUnround · K), (feistelUnround_feistelRound · K), (feistelRound_feistelUnround · K)⟩

theorem foldl_feistelRound_bijective (Ks : List RawSubkey) : Function.Bijective fun h => Ks.foldl feistelRound h := by
  induction Ks with
  | nil => exact Function.bijective_id
  | cons K Ks ih => exact ih.comp (feistelRound_bijective K)

/-- ENC in its three stages (R131). -/
theorem enc_eq_comp (sk : SubkeyWords) :
    enc sk = finalBlock ∘ (fun h => (roundKeys sk).foldl feistelRound h) ∘ initialHalves := rfl

end Sys2Proof.Machine

/-! ## Complements through the network (R138) -/

namespace Sys2Proof.Machine

/-- Both halves complemented. -/
def Halves.complement (h : Halves) : Halves := ⟨~~~h.L, ~~~h.R⟩

theorem finalBlock_complement (h : Halves) : finalBlock h.complement = ~~~finalBlock h := by
  have hfp : select fp (~~~(h.R ++ h.L)) = ~~~select fp (h.R ++ h.L) := select_not fp _ (by decide)
  rw [finalBlock, Halves.complement, ← BitVec.not_append, hfp, finalBlock]

/-- FP commutes with complement, so IP, which it undoes, does too. -/
theorem initialHalves_not (b : Word64) : initialHalves (~~~b) = (initialHalves b).complement := by
  calc initialHalves (~~~b)
      = initialHalves (~~~finalBlock (initialHalves b).exchanged) := by rw [finalBlock_exchanged_initialHalves]
    _ = initialHalves (finalBlock (initialHalves b).exchanged.complement) := by rw [finalBlock_complement]
    _ = (initialHalves b).exchanged.complement.exchanged := initialHalves_finalBlock _

/-- E copies bits, so the complements cancel before the boxes are looked up. -/
theorem roundF_not_not (R : Word32) (K : RawSubkey) : roundF (~~~R) (~~~K) = roundF R K := by
  have hE : select expansion (~~~R) = ~~~select expansion R := select_not expansion R (by decide)
  rw [roundF, hE, ← BitVec.not_xor_left, ← BitVec.not_xor_right, BitVec.not_not, roundF]

theorem feistelRound_complement (h : Halves) (K : RawSubkey) :
    feistelRound h.complement (~~~K) = (feistelRound h K).complement := by
  simp only [feistelRound, Halves.complement, roundF_not_not, BitVec.not_xor_left]

theorem foldl_feistelRound_complement (Ks : List RawSubkey) (h : Halves) :
    (Ks.map (~~~·)).foldl feistelRound h.complement = (Ks.foldl feistelRound h).complement := by
  induction Ks generalizing h with
  | nil => rfl
  | cons K Ks ih => rw [List.map_cons, List.foldl_cons, feistelRound_complement, ih, List.foldl_cons]

/-- Every bit of a raw subkey is one key bit (R118), so complementing the key complements the raw subkeys. -/
theorem roundKeys_ks_not (k : Word64) : roundKeys (ks (~~~k)) = (roundKeys (ks k)).map (~~~·) := by
  rw [roundKeys, roundKeys, List.map_map]
  refine List.map_congr_left fun r _ => ?_
  rw [← BitVec.xor_allOnes, roundKey_ks_xor, roundKey_ks_allOnes, BitVec.xor_allOnes, Function.comp_apply]

theorem enc_ks_not_not (k b : Word64) : enc (ks (~~~k)) (~~~b) = ~~~enc (ks k) b := by
  rw [enc, roundKeys_ks_not, initialHalves_not, foldl_feistelRound_complement, finalBlock_complement, enc]

end Sys2Proof.Machine

/-! ## The expansion as windows (R133) -/

namespace Sys2Proof.Machine

/-- Each half bit stands in R133's `R[0] || R || R[31]` one place up, and the two end bits stand there once more. -/
theorem lastBit_append_append_firstBit_getLsbD (R : Word32) {k : Nat} (hk : k < 34) :
    (R.extractLsb' 0 1 ++ R ++ R.extractLsb' 31 1).getLsbD k = R.getLsbD ((k + 31) % 32) := by
  rw [BitVec.getLsbD_append, BitVec.getLsbD_append, BitVec.getLsbD_extractLsb', BitVec.getLsbD_extractLsb']
  obtain rfl | hmiddle | rfl : k = 0 ∨ (1 ≤ k ∧ k ≤ 32) ∨ k = 33 := by omega
  · simp
  · simp [show ¬ k < 1 by omega, show k - 1 < 32 by omega, show (k + 31) % 32 = k - 1 by omega]
  · simp

/-- The entries of E, read as bit indices of the half: chunk by chunk, a window that starts four places further down. -/
theorem expansion_place :
    ∀ (i : Fin 8) (j : Fin 6), 32 - expansion[47 - (42 - 6 * i.val + j.val)] = (28 - 4 * i.val + j.val + 31) % 32 := by
  decide

end Sys2Proof.Machine

/-! ## The statements about the cipher core (43_feistel_core.md) -/

namespace Sys2Proof.Proofs

open Sys2Proof.Machine

/-- Settles O48: the two permutations and each of the rounds between them can be undone. -/
theorem encIsABijection : Obligations.EncIsABijection := fun sk => by
  rw [enc_eq_comp]
  exact finalBlock_bijective.comp ((foldl_feistelRound_bijective (roundKeys sk)).comp initialHalves_bijective)

/-- Settles O50: complemented halves stay complemented through every round; the second example is the law at the first. -/
theorem complementation : Obligations.Complementation := by
  have hzero : enc (ks 0#64) 0#64 = 0x8CA64DE9C1B123A7#64 := by decide +kernel
  refine ⟨enc_ks_not_not, hzero, ?_⟩
  have hones : 0xFFFFFFFFFFFFFFFF#64 = ~~~0#64 := by decide
  rw [hones, enc_ks_not_not, hzero]
  decide

/-- Settles O52: ENC reads the words through UNPACK, and UNPACK through the chunk fields. -/
theorem encIgnoresSubkeyPadding : Obligations.EncIgnoresSubkeyPadding := by
  intro sk sk' b h
  have hkeys : roundKeys sk = roundKeys sk' := List.map_congr_left fun r _ =>
    unpack_eq_of_and_not_padMask_eq (h ⟨2 * r.val, by omega⟩) (h ⟨2 * r.val + 1, by omega⟩)
  rw [enc, hkeys, enc]

/-- Settles O56: bit `j` of both sides is the half's bit that E lists there. -/
theorem expansionIsOverlappingWindows : Obligations.ExpansionIsOverlappingWindows := by
  intro R i
  apply BitVec.eq_of_getLsbD_eq
  intro j hj
  rw [chunk_getLsbD _ _ hj, select_getLsbD expansion R (by omega), BitVec.getLsbD_extractLsb', decide_eq_true hj,
    Bool.true_and, lastBit_append_append_firstBit_getLsbD R (by omega)]
  exact congrArg R.getLsbD (expansion_place i ⟨j, hj⟩)

end Sys2Proof.Proofs

/-! ## The place of the leading one and the significand below it (R153) -/

namespace Sys2Proof.Machine

theorem two_pow_leadingOne_le {x : Word64} (hx : x ≠ 0#64) : 2 ^ leadingOne x ≤ x.toNat :=
  Nat.log2_self_le (BitVec.toNat_ne.mp hx)

theorem lt_two_pow_leadingOne_succ (x : Word64) : x.toNat < 2 ^ (leadingOne x + 1) := Nat.lt_log2_self

theorem leadingOne_le (x : Word64) : leadingOne x ≤ 63 := by
  by_cases hx : x = 0#64
  · subst hx
    decide
  · exact Nat.lt_succ_iff.mp ((Nat.log2_lt (BitVec.toNat_ne.mp hx)).mpr x.isLt)

theorem leadingOne_of_le {x : Word64} (h : 2 ^ 63 ≤ x.toNat) : leadingOne x = 63 :=
  (Nat.log2_eq_iff (by omega)).mpr ⟨h, x.isLt⟩

/-- The word with its leading one moved to bit 52, whatever then lies below bit 0 dropped: R153's `2^52 + frac`, by one
division in place of the two shifts. -/
def significand (x : Word64) : ℕ := x.toNat * 2 ^ 52 / 2 ^ leadingOne x

theorem significand_of_le {x : Word64} (h : 52 ≤ leadingOne x) :
    significand x = x.toNat / 2 ^ (leadingOne x - 52) := by
  obtain ⟨d, hd⟩ := Nat.exists_eq_add_of_le' h
  rw [significand, hd, Nat.pow_add, Nat.mul_div_mul_right _ _ (by decide), Nat.add_sub_cancel]

theorem significand_of_lt {x : Word64} (h : leadingOne x < 52) :
    significand x = x.toNat * 2 ^ (52 - leadingOne x) := by
  have hsplit : 2 ^ 52 = 2 ^ (52 - leadingOne x) * 2 ^ leadingOne x := by rw [← Nat.pow_add, Nat.sub_add_cancel h.le]
  rw [significand, hsplit, ← Nat.mul_assoc, Nat.mul_div_cancel _ (Nat.two_pow_pos _)]

theorem le_significand {x : Word64} (hx : x ≠ 0#64) : 2 ^ 52 ≤ significand x := by
  rw [significand, Nat.le_div_iff_mul_le (Nat.two_pow_pos _), Nat.mul_comm]
  exact Nat.mul_le_mul_right _ (two_pow_leadingOne_le hx)

theorem significand_lt (x : Word64) : significand x < 2 ^ 53 := by
  rw [significand, Nat.div_lt_iff_lt_mul (Nat.two_pow_pos _)]
  calc x.toNat * 2 ^ 52
      < 2 ^ (leadingOne x + 1) * 2 ^ 52 := Nat.mul_lt_mul_of_pos_right (lt_two_pow_leadingOne_succ x) (by decide)
    _ = 2 ^ 53 * 2 ^ leadingOne x := by ring

/-- The fraction is the significand without its leading one: neither shift loses a bit that would stand below bit 52. -/
theorem fractionBits_toNat (x : Word64) : (fractionBits x).toNat = significand x % 2 ^ 52 := by
  rw [fractionBits]
  split
  next h =>
    rw [significand_of_le h, BitVec.extractLsb'_toNat, BitVec.toNat_ushiftRight, Nat.shiftRight_zero,
      Nat.shiftRight_eq_div_pow]
  next h =>
    rw [significand_of_lt (Nat.not_le.mp h), BitVec.extractLsb'_toNat, BitVec.toNat_shiftLeft, Nat.shiftRight_zero,
      Nat.shiftLeft_eq, Nat.mod_mod_of_dvd _ (Nat.pow_dvd_pow 2 (by decide))]

theorem two_pow_add_fractionBits {x : Word64} (hx : x ≠ 0#64) : 2 ^ 52 + (fractionBits x).toNat = significand x := by
  have hlow := le_significand hx
  have hhigh := significand_lt x
  rw [fractionBits_toNat]
  omega

/-- Nothing is dropped when the leading one is at bit 52 or below, or when the bits that are dropped are zero (R153). -/
theorem significand_exact_iff (x : Word64) :
    significand x * 2 ^ leadingOne x = x.toNat * 2 ^ 52 ↔
      leadingOne x ≤ 52 ∨ x.toNat % 2 ^ (leadingOne x - 52) = 0 := by
  rw [significand, ← Nat.dvd_iff_div_mul_eq]
  obtain h | h := Nat.le_total (leadingOne x) 52
  · exact iff_of_true (Dvd.dvd.mul_left (Nat.pow_dvd_pow 2 h) _) (.inl h)
  · obtain ⟨d, hd⟩ := Nat.exists_eq_add_of_le' h
    rw [hd, Nat.pow_add, Nat.mul_dvd_mul_iff_right (by decide), Nat.add_sub_cancel, Nat.dvd_iff_mod_eq_zero]
    refine ⟨.inr, fun hor => hor.elim (fun hle => ?_) id⟩
    obtain rfl : d = 0 := by omega
    exact Nat.mod_one _

end Sys2Proof.Machine

/-! ## The fields of a converted word (R153) -/

namespace Sys2Proof.Machine

theorem f64Sign_append (sign : BitVec 1) (e : BitVec 11) (f : BitVec 52) :
    (sign ++ e ++ f).getLsbD 63 = sign.getLsbD 0 := by
  rw [BitVec.getLsbD_append, if_neg (by decide), BitVec.getLsbD_append, if_neg (by decide)]

theorem f64Exponent_append (sign : BitVec 1) (e : BitVec 11) (f : BitVec 52) :
    f64Exponent (sign ++ e ++ f) = e.toNat := by
  have h : (sign ++ e ++ f).extractLsb' 52 11 = e := by
    rw [BitVec.extractLsb'_append_eq_of_le (Nat.le_refl 52), BitVec.extractLsb'_append_eq_right]
  exact congrArg BitVec.toNat h

theorem f64Fraction_append (sign : BitVec 1) (e : BitVec 11) (f : BitVec 52) :
    f64Fraction (sign ++ e ++ f) = f.toNat := by
  have h : (sign ++ e ++ f).extractLsb' 0 52 = f := BitVec.extractLsb'_append_eq_right
  exact congrArg BitVec.toNat h

theorem u64ToF64_zero : u64ToF64 0#64 = 0#64 := rfl

theorem u64ToF64_of_ne_zero {x : Word64} (hx : x ≠ 0#64) :
    u64ToF64 x = 0#1 ++ biasedExponent x ++ fractionBits x := if_neg hx

theorem f64Exponent_u64ToF64 {x : Word64} (hx : x ≠ 0#64) : f64Exponent (u64ToF64 x) = 959 + leadingOne x := by
  have hp := leadingOne_le x
  rw [u64ToF64_of_ne_zero hx, f64Exponent_append, biasedExponent, BitVec.toNat_ofNat, Nat.mod_eq_of_lt (by omega)]

theorem f64Fraction_u64ToF64 {x : Word64} (hx : x ≠ 0#64) : 2 ^ 52 + f64Fraction (u64ToF64 x) = significand x := by
  rw [u64ToF64_of_ne_zero hx, f64Fraction_append, two_pow_add_fractionBits hx]

theorem u64ToF64_sign (x : Word64) : (u64ToF64 x).getLsbD 63 = false := by
  by_cases hx : x = 0#64
  · subst hx
    rfl
  · rw [u64ToF64_of_ne_zero hx]
    exact f64Sign_append 0#1 (biasedExponent x) (fractionBits x)

theorem u64ToF64_eq_zero_or_exponent (x : Word64) :
    u64ToF64 x = 0#64 ∨ 959 ≤ f64Exponent (u64ToF64 x) ∧ f64Exponent (u64ToF64 x) ≤ 1022 := by
  by_cases hx : x = 0#64
  · exact .inl (hx ▸ u64ToF64_zero)
  · have hp := leadingOne_le x
    rw [f64Exponent_u64ToF64 hx]
    exact .inr (by omega)

theorem u64ToF64_nonNegFinite (x : Word64) : f64NonNegFinite (u64ToF64 x) = true := by
  have hexp : f64Exponent (u64ToF64 x) < 2047 := by
    obtain h | ⟨-, h⟩ := u64ToF64_eq_zero_or_exponent x
    · rw [h]
      decide
    · omega
  rw [f64NonNegFinite, u64ToF64_sign, decide_eq_true hexp, Bool.not_false, Bool.true_and]

/-- From `2^63` on only the upper 53 bits are read (R154). -/
theorem u64ToF64_congr {x y : Word64} (hx : 2 ^ 63 ≤ x.toNat) (h : x.extractLsb' 11 53 = y.extractLsb' 11 53) :
    u64ToF64 x = u64ToF64 y := by
  have htop : x.toNat / 2 ^ 11 = y.toNat / 2 ^ 11 := by
    have hnat := congrArg BitVec.toNat h
    rw [BitVec.extractLsb'_toNat, BitVec.extractLsb'_toNat, Nat.shiftRight_eq_div_pow, Nat.shiftRight_eq_div_pow] at hnat
    omega
  have hy : 2 ^ 63 ≤ y.toNat := by omega
  have hpx : leadingOne x = 63 := leadingOne_of_le hx
  have hpy : leadingOne y = 63 := leadingOne_of_le hy
  have hexp : biasedExponent x = biasedExponent y := by rw [biasedExponent, biasedExponent, hpx, hpy]
  have hfrac : fractionBits x = fractionBits y := by
    apply BitVec.eq_of_toNat_eq
    rw [fractionBits_toNat, fractionBits_toNat, significand_of_le (by omega), significand_of_le (by omega), hpx, hpy, htop]
  rw [u64ToF64_of_ne_zero (by rintro rfl; simp at hx), u64ToF64_of_ne_zero (by rintro rfl; simp at hy), hexp, hfrac]

end Sys2Proof.Machine

/-! ## The value of a binary64 word against a power of two -/

namespace Sys2Proof.Machine

theorem two_zpow_natCast_add (n : ℕ) (j : ℤ) : (2 : ℚ) ^ (n + j) = ((2 ^ n : ℕ) : ℚ) * 2 ^ j := by
  rw [zpow_add₀ two_ne_zero, zpow_natCast, Nat.cast_pow, Nat.cast_ofNat]

theorem f64Value_nonneg (b : Word64) : 0 ≤ f64Value b := by
  unfold f64Value
  split <;> positivity

/-- A number with biased exponent `e` lies below the numbers of the next exponent. -/
theorem f64Value_lt (b : Word64) : f64Value b < 2 ^ ((f64Exponent b : ℤ) - 1022) := by
  have hfrac : f64Fraction b < 2 ^ 52 := (b.extractLsb' 0 52).isLt
  rw [f64Value]
  split
  next he =>
    rw [show (f64Exponent b : ℤ) - 1022 = (52 : ℕ) + -1074 by omega, two_zpow_natCast_add]
    exact mul_lt_mul_of_pos_right (by exact_mod_cast hfrac) (by positivity)
  next he =>
    rw [show (f64Exponent b : ℤ) - 1022 = (53 : ℕ) + (f64Exponent b - 1075) by omega, two_zpow_natCast_add]
    refine mul_lt_mul_of_pos_right ?_ (by positivity)
    exact_mod_cast (by omega : 2 ^ 52 + f64Fraction b < 2 ^ 53)

/-- A normal number is a whole multiple of the unit in its last place, so of every smaller power of two. -/
theorem exists_f64Value_eq_mul {b : Word64} {n : ℤ} (he : f64Exponent b ≠ 0) (hn : n ≤ f64Exponent b - 1075) :
    ∃ k : ℕ, f64Value b = k * 2 ^ n := by
  obtain ⟨d, hd⟩ := Int.le.dest hn
  refine ⟨(2 ^ 52 + f64Fraction b) * 2 ^ d, ?_⟩
  rw [f64Value, if_neg he, ← hd, add_comm n, two_zpow_natCast_add, Nat.cast_mul, mul_assoc]

end Sys2Proof.Machine

/-! ## The value of a converted word against the quotient (R153, R154) -/

namespace Sys2Proof.Machine

theorem f64Value_zero : f64Value 0#64 = 0 := by
  have hexp : f64Exponent 0#64 = 0 := rfl
  have hfrac : f64Fraction 0#64 = 0 := rfl
  simp [f64Value, hexp, hfrac]

theorem f64Value_u64ToF64 {x : Word64} (hx : x ≠ 0#64) :
    f64Value (u64ToF64 x) = significand x * 2 ^ ((leadingOne x : ℤ) - 116) := by
  have hexp := f64Exponent_u64ToF64 hx
  have hscale : (f64Exponent (u64ToF64 x) : ℤ) - 1075 = leadingOne x - 116 := by omega
  rw [f64Value, if_neg (by omega), f64Fraction_u64ToF64 hx, hscale]

/-- The quotient, counted in units of the last place of the result. -/
theorem quotient_eq (x : Word64) (p : ℕ) :
    (x.toNat : ℚ) / 2 ^ 64 = ((x.toNat * 2 ^ 52 : ℕ) : ℚ) / (2 ^ p : ℕ) * 2 ^ ((p : ℤ) - 116) := by
  rw [zpow_sub₀ two_ne_zero, zpow_natCast]
  push_cast
  field_simp
  ring

theorem mul_le_quotient_iff (x : Word64) (p k : ℕ) :
    (k : ℚ) * 2 ^ ((p : ℤ) - 116) ≤ (x.toNat : ℚ) / 2 ^ 64 ↔ k * 2 ^ p ≤ x.toNat * 2 ^ 52 := by
  rw [quotient_eq x p, mul_le_mul_iff_left₀ (by positivity), le_div_iff₀ (by positivity)]
  exact_mod_cast Iff.rfl

theorem mul_eq_quotient_iff (x : Word64) (p k : ℕ) :
    (k : ℚ) * 2 ^ ((p : ℤ) - 116) = (x.toNat : ℚ) / 2 ^ 64 ↔ k * 2 ^ p = x.toNat * 2 ^ 52 := by
  rw [quotient_eq x p, mul_left_inj' (by positivity), eq_div_iff (by positivity)]
  exact_mod_cast Iff.rfl

theorem f64Value_u64ToF64_le_quotient (x : Word64) : f64Value (u64ToF64 x) ≤ (x.toNat : ℚ) / 2 ^ 64 := by
  by_cases hx : x = 0#64
  · subst hx
    simp [u64ToF64_zero, f64Value_zero]
  · rw [f64Value_u64ToF64 hx, mul_le_quotient_iff]
    exact Nat.div_mul_le_self _ _

/-- No binary64 number lies between the result and the quotient: one of a smaller exponent lies below the leading one
alone, and any other is a whole number of units of the result's last place. -/
theorem f64Value_le_f64Value_u64ToF64 {x y : Word64} (h : f64Value y ≤ (x.toNat : ℚ) / 2 ^ 64) :
    f64Value y ≤ f64Value (u64ToF64 x) := by
  by_cases hx : x = 0#64
  · subst hx
    simpa [u64ToF64_zero, f64Value_zero] using h
  rw [f64Value_u64ToF64 hx]
  obtain hlt | hge := Nat.lt_or_ge (f64Exponent y) (959 + leadingOne x)
  · calc f64Value y
        ≤ 2 ^ ((f64Exponent y : ℤ) - 1022) := (f64Value_lt y).le
      _ ≤ 2 ^ ((52 : ℕ) + ((leadingOne x : ℤ) - 116)) := zpow_le_zpow_right₀ one_le_two (by omega)
      _ = ((2 ^ 52 : ℕ) : ℚ) * 2 ^ ((leadingOne x : ℤ) - 116) := two_zpow_natCast_add 52 _
      _ ≤ significand x * 2 ^ ((leadingOne x : ℤ) - 116) :=
        mul_le_mul_of_nonneg_right (Nat.cast_le.mpr (le_significand hx)) (by positivity)
  · obtain ⟨k, hk⟩ := exists_f64Value_eq_mul (b := y) (n := leadingOne x - 116) (by omega) (by omega)
    rw [hk, mul_le_quotient_iff, ← Nat.le_div_iff_mul_le (Nat.two_pow_pos _)] at h
    rw [hk]
    exact mul_le_mul_of_nonneg_right (Nat.cast_le.mpr h) (by positivity)

theorem f64Value_u64ToF64_eq_quotient_iff (x : Word64) :
    f64Value (u64ToF64 x) = (x.toNat : ℚ) / 2 ^ 64 ↔ leadingOne x ≤ 52 ∨ x.toNat % 2 ^ (leadingOne x - 52) = 0 := by
  by_cases hx : x = 0#64
  · subst hx
    exact iff_of_true (by simp [u64ToF64_zero, f64Value_zero]) (.inl (by decide))
  · rw [f64Value_u64ToF64 hx, mul_eq_quotient_iff, significand_exact_iff]

/-- The quotient is monotone, and the result is the greatest number not above it. -/
theorem f64Value_u64ToF64_mono {x y : Word64} (h : x.toNat ≤ y.toNat) :
    f64Value (u64ToF64 x) ≤ f64Value (u64ToF64 y) := by
  apply f64Value_le_f64Value_u64ToF64
  calc f64Value (u64ToF64 x)
      ≤ (x.toNat : ℚ) / 2 ^ 64 := f64Value_u64ToF64_le_quotient x
    _ ≤ (y.toNat : ℚ) / 2 ^ 64 := by gcongr

/-- The greatest result has 53 ones and the exponent of the last binade below 1 (R154). -/
theorem f64Value_u64ToF64_le (x : Word64) : f64Value (u64ToF64 x) ≤ 1 - 1 / 2 ^ 53 := by
  by_cases hx : x = 0#64
  · subst hx
    rw [u64ToF64_zero, f64Value_zero]
    norm_num
  have hsig : significand x ≤ 2 ^ 53 - 1 := Nat.le_sub_one_of_lt (significand_lt x)
  have hexp : (leadingOne x : ℤ) - 116 ≤ -53 := by
    have hp := leadingOne_le x
    omega
  calc f64Value (u64ToF64 x)
      = significand x * 2 ^ ((leadingOne x : ℤ) - 116) := f64Value_u64ToF64 hx
    _ ≤ ((2 ^ 53 - 1 : ℕ) : ℚ) * 2 ^ (-53 : ℤ) := by
      gcongr
      exact one_le_two
    _ = 1 - 1 / 2 ^ 53 := by norm_num

theorem f64Value_u64ToF64_lt_one (x : Word64) : f64Value (u64ToF64 x) < 1 :=
  (f64Value_u64ToF64_le x).trans_lt (by norm_num)

end Sys2Proof.Machine

/-! ## What PRN and UNIF answer with a context, and after an INIT (R151, R152, R156) -/

namespace Sys2Proof.Machine

theorem transition_prn_of_cv {S : Arch} (hcv : S.cv = true) (c : Word64) :
    transition S (.prn c) = (S, ⟨.ok, enc S.sk c⟩) := if_pos hcv

theorem transition_unif_of_cv {S : Arch} (hcv : S.cv = true) (c : Word64) :
    transition S (.unif c) = (S, ⟨.ok, u64ToF64 (enc S.sk c)⟩) := if_pos hcv

/-- A command issued after an INIT and commands that write no state is answered from that INIT's context. -/
theorem transactAll_init_last_response {s : State} (hempty : s.slot = .empty) (k : Word64) {cs : List Instr}
    (hpure : ∀ i ∈ cs, isPure i = true) (i : Instr) :
    ∃ t, transactAll (.init k :: (cs ++ [i])) s = .next t ∧
      t.taken.getLast? = some (transition ⟨true, k, ks k⟩ i).2 := by
  obtain ⟨t, hrun, -, -, htaken⟩ := transactAll_refines_transitions (.init k :: (cs ++ [i])) hempty
  have hcontext : (transitions s.arch (.init k :: cs)).1 = ⟨true, k, ks k⟩ := by
    rw [transitions, transition_init, transitions_of_isPure _ hpure]
  rw [← List.cons_append, transitions_append, hcontext, ← List.append_assoc] at htaken
  exact ⟨t, hrun, htaken ▸ List.getLast?_concat⟩

/-- The groups of the complemented seed are complemented, and the parity bits do not reach the subkeys (R116). -/
theorem ks_not_idx (s : Seed) : ks (~~~(idx s)) = ks (idx (~~~s)) := by
  rw [ks_eq_iff, and_not_parityMask_eq_iff]
  intro i hi hparity
  rw [BitVec.getLsbD_not, idx_getLsbD s hi, idx_getLsbD _ hi, BitVec.getLsbD_not]
  simp [hi, hparity, show i - i / 8 - 1 < 56 by omega]

end Sys2Proof.Machine

/-! ## The statements about PRN, UNIF and the conversion (44_prng_top.md) -/

namespace Sys2Proof.Proofs

open Sys2Proof.Machine

/-- Settles O17: with a context, PRN's transition keeps the state and encrypts the counter. -/
theorem prnCompletes : Obligations.PrnCompletes := by
  intro c s hcv
  rw [exec_eq, transition_prn_of_cv (S := s.arch) hcv]
  rfl

/-- Settles O18: with a context, UNIF's transition keeps the state, and every result of the conversion lies in `[0, 1)`. -/
theorem unifCompletesInUnitInterval : Obligations.UnifCompletesInUnitInterval := by
  intro c s hcv
  refine ⟨u64ToF64 (enc s.sk c), ?_, rfl, u64ToF64_nonNegFinite _, f64Value_nonneg _, f64Value_u64ToF64_lt_one _⟩
  rw [exec_eq, transition_unif_of_cv (S := s.arch) hcv]
  rfl

/-- Settles O20: both commands encrypt the same counter under the same subkeys. -/
theorem unifIsConvertedPrn : Obligations.UnifIsConvertedPrn := by
  intro c w s hcv hprn
  rw [answerOf_exec, transition_prn_of_cv (S := s.arch) hcv] at hprn
  obtain rfl : enc s.sk c = w := by simpa using hprn
  rw [answerOf_exec, transition_unif_of_cv (S := s.arch) hcv, State.arch_sk]

/-- Settles O25: the identifier of seed 0 and the subkey words of key 0 are zero, and ENC's value there is that of R138. -/
theorem referenceVector : Obligations.ReferenceVector := by
  intro s
  obtain ⟨d, hidgen, rfl, -, -⟩ := idgenOfLegalSeedCompletes 0#64 s (by decide)
  obtain ⟨-, hzero, -⟩ := complementation
  refine ⟨_, hidgen, initCompletes 0#64 s, ks_zero, ?_⟩
  rw [prnCompletes 0#64 _ rfl]
  dsimp only
  rw [hzero]

/-- Settles O36: a run of transactions is a run of transitions; INIT's leaves its own context, and pure commands keep it. -/
theorem numbersDependOnLastInitOnly : Obligations.NumbersDependOnLastInitOnly := by
  intro s k c cs hempty hpure
  exact ⟨transactAll_init_last_response hempty k hpure (.prn c), transactAll_init_last_response hempty k hpure (.unif c)⟩

/-- Settles O49: PRN answers with ENC, which is injective in the block. -/
theorem distinctCountersGiveDistinctWords : Obligations.DistinctCountersGiveDistinctWords := by
  intro s c c' hcv hne
  refine ⟨enc s.sk c, enc s.sk c', ?_, ?_, fun heq => hne ((encIsABijection s.sk).injective heq)⟩
  · rw [answerOf_exec, transition_prn_of_cv (S := s.arch) hcv, State.arch_sk]
  · rw [answerOf_exec, transition_prn_of_cv (S := s.arch) hcv, State.arch_sk]

/-- Settles O51: the complemented seed gives the subkeys of the complemented identifier, to which R138 applies. -/
theorem complementedSeedsGiveComplementedStreams : Obligations.ComplementedSeedsGiveComplementedStreams := by
  refine ⟨ks_not_idx, fun s c => ?_⟩
  rw [← ks_not_idx, enc_ks_not_not]

/-- Settles O59: the result is the whole number of units of its last place that the quotient holds, and every binary64 number
not above the quotient either has a smaller exponent or is such a whole number too. -/
theorem conversionRoundsTowardZero : Obligations.ConversionRoundsTowardZero := by
  intro x
  refine ⟨u64ToF64_nonNegFinite x, f64Value_u64ToF64_le_quotient x, fun y _ => f64Value_le_f64Value_u64ToF64,
    fun hx => ⟨f64Exponent_u64ToF64 hx, ?_⟩, f64Value_u64ToF64_eq_quotient_iff x⟩
  rw [f64Fraction_u64ToF64 hx]
  exact f64Value_u64ToF64 hx

/-- Settles O60: at most 53 ones below 1; monotone because rounding toward zero is; merged because the low bits are dropped. -/
theorem conversionBounds : Obligations.ConversionBounds :=
  ⟨fun x => ⟨f64Value_nonneg _, f64Value_u64ToF64_le x⟩, fun x => ⟨u64ToF64_sign x, u64ToF64_eq_zero_or_exponent x⟩,
    fun _ _ => f64Value_u64ToF64_mono, fun _ _ => u64ToF64_congr⟩

end Sys2Proof.Proofs

/-! ## Errors: the answer is the whole effect (R171) -/

namespace Sys2Proof.Machine

/-- IDGEN, PRN and UNIF put the transition's response in flight and do nothing else (R14). -/
theorem exec_of_isPure {i : Instr} (hpure : isPure i = true) (s : State) :
    exec i s = .next { s with slot := .holding (latencyWait s.lat i) (transition s.arch i).2 } := by
  rw [exec_eq, transition_arch_of_isPure s.arch hpure, State.withArch_arch]
  rfl

/-- INIT never fails (R117). -/
theorem isPure_of_status_ne_ok {S : Arch} {i : Instr} (h : (transition S i).2.status ≠ .ok) : isPure i = true := by
  obtain hpure | ⟨k, rfl⟩ := isPure_or_init i
  · exact hpure
  · exact absurd rfl h

/-- The data of an error is 0, so its status determines the whole response. -/
theorem transition_response_eq_error_iff (S : Arch) (i : Instr) {e : Status} (he : e ≠ .ok) :
    (transition S i).2 = ⟨e, 0#64⟩ ↔ (transition S i).2.status = e := by
  refine ⟨fun h => by rw [h], fun hstatus => ?_⟩
  have hdata : (transition S i).2.data = 0#64 := transition_response_wf S i (hstatus ▸ he)
  rw [← hstatus, ← hdata]

/-- The status alone tells whether a command raises an error: neither the data nor the rest of the state can differ (R171). -/
theorem exec_eq_error_iff {i : Instr} (hpure : isPure i = true) (s : State) {e : Status} (he : e ≠ .ok) :
    exec i s = .next { s with slot := .holding (latencyWait s.lat i) ⟨e, 0#64⟩ } ↔
      (transition s.arch i).2.status = e := by
  rw [← transition_response_eq_error_iff s.arch i he, exec_of_isPure hpure]
  constructor
  · intro h
    injection h with hstate
    injection congrArg State.slot hstate
  · intro h
    rw [h]

end Sys2Proof.Machine

/-! ## The statements about errors (60_exceptions.md) -/

namespace Sys2Proof.Proofs

open Sys2Proof.Machine

/-- Settles O15: IDGEN's status is RANGE_ERR for a large operand only. -/
theorem idgenRangeErrorExactly : Obligations.IdgenRangeErrorExactly := by
  intro seed s
  have hstatus := transition_status_eq_rangeErr_iff s.arch (.idgen seed)
  exact (exec_eq_error_iff (i := .idgen seed) rfl s (by decide)).trans (by simpa using hstatus)

/-- Settles O19: the status of PRN and of UNIF is NO_CONTEXT without a context only. -/
theorem noContextExactlyWithoutContext : Obligations.NoContextExactlyWithoutContext := by
  intro c s
  have hprn := transition_status_eq_noContext_iff s.arch (.prn c)
  have hunif := transition_status_eq_noContext_iff s.arch (.unif c)
  constructor
  · exact (exec_eq_error_iff (i := .prn c) rfl s (by decide)).trans (by simpa using hprn)
  · exact (exec_eq_error_iff (i := .unif c) rfl s (by decide)).trans (by simpa using hunif)

/-- Settles O21: a command that answers with an error is not INIT, so its answer is its whole effect. -/
theorem errorsWriteNoState : Obligations.ErrorsWriteNoState := by
  intro i s r hanswer hstatus
  obtain rfl : (transition s.arch i).2 = r := by simpa [answerOf_exec] using hanswer
  exact ⟨transition_response_wf s.arch i hstatus, exec_of_isPure (isPure_of_status_ne_ok hstatus) s⟩

end Sys2Proof.Proofs

/-! ## The ports and the step at an edge with `rst = 1` (R190 to R192) -/

namespace Sys2Proof.Machine

section
variable {s : State}

/-- R190: while `rst = 1` no command is accepted, not even by an idle block (log entry 7). -/
theorem cmdReady_of_rst (hrst : s.pinsNow.rst = true) : s.cmdReady = false := by
  simp [State.cmdReady, hrst]

/-- R190: while `rst = 1` no response is presented, whether the slot is empty, waiting or valid (log entry 7). -/
theorem rspValid_of_rst (hrst : s.pinsNow.rst = true) : s.rspValid = false := by
  rcases hslot : s.slot with _ | ⟨_ | n, r⟩
  · exact rspValid_of_empty hslot
  · simp [State.rspValid, hslot, hrst]
  · exact rspValid_of_waiting hslot

theorem step_of_rst (hrst : s.pinsNow.rst = true) : step s = .next s.tick.resetEdge :=
  step_of_reset (edgeEvent_reset hrst)

end

end Sys2Proof.Machine

/-! ## The statement about reset (70_reset_and_hazards.md) -/

namespace Sys2Proof.Proofs

open Sys2Proof.Machine

/-- Settles O9: `rst = 1` masks both ports and wins over every other event; the state it leaves has an empty slot. -/
theorem resetEdgeClearsAndAbandons : Obligations.ResetEdgeClearsAndAbandons := fun s hrst =>
  have hempty : s.tick.resetEdge.slot = .empty := State.resetEdge_slot s.tick
  ⟨cmdReady_of_rst hrst, rspValid_of_rst hrst, s.tick.resetEdge, step_of_rst hrst, rfl, hempty, rfl, rfl, rfl,
    fun hdone => ⟨cmdReady_of_empty hempty hdone, rspValid_of_empty hempty⟩⟩

end Sys2Proof.Proofs
